-- ==== Sys2Proof/Word.lean ====
section
/-! DEFINITION. The words the Lambrek 4132 is described in: bytes and numbers of the print link, station
numbers, glyph codes, the five debounced lines, and the header every order command carries. -/

namespace Sys2Proof

/-- A byte of the print link or of the imager link. -/
abbrev Byte := BitVec 8

/-- A two-byte field: job and page numbers, lengths, plate positions on the links. -/
abbrev Half := BitVec 16

/-- A four-byte field: the counters of R19 and the match value. Addition wraps as R19 says. -/
abbrev Word := BitVec 32

/-- A station, 0 to 3. -/
abbrev StationId := Fin 4

/-- A glyph code. Codes 1 to 250 are glyphs; in texts and records code 0 stands for no glyph. -/
abbrev Code := Fin 251

/-- A collation key (R88): the weights, first one first. -/
abbrev Key := List Byte

/-- A text (R89): glyph codes of a key field, 0 for an empty cell inside it. -/
abbrev Text := List Code

/-- A stop set of a format tape line: channel `k` (1 to 12) is bit `k - 1` (R180). -/
abbrev StopSet := BitVec 12

/-- The five lines the imager port debounces (R151). -/
inductive Line where
  | ready | mediaLow | cover | fault | hold
  deriving DecidableEq, Repr

/-- What every order command says of its frame besides its code and data: the station and sequence bit of
the lead byte (R178), and the sum of all the frame's bytes modulo 256, check byte included (R179). A frame
whose check byte is right has `sum = 0`. -/
structure Head where
  station : StationId
  seq : Bool
  sum : Byte
  deriving DecidableEq, Repr

end Sys2Proof
end

