-- ==== Sys2Proof/Syntax.lean ====
section
/-! DEFINITION. The commands of the Lambrek 4132: one constructor for each row of spec/opcode_table.json.

An order row is an order frame reaching the print link whole. Its `Head` gives the station, the sequence bit
and the sum of the frame's bytes; the rest are the frame's data bytes as they stand on the link (R180). For
the STATION and DEVICE rows the sub-function byte is fixed by the row and `params` are the data bytes after it.
So every data length and every field value that can stand on the link is an operand. -/

namespace Sys2Proof

inductive Instr where
  /-- The supply rises through the power-on threshold (R26). -/
  | powerOn
  /-- The computer asserts RESET (R177). -/
  | linkReset
  /-- The computer releases RESET (R177). -/
  | linkResetRelease
  /-- The computer reads one byte with LDIR set to reading (R167, R171). -/
  | endingStatusRead
  /-- 50 ms have passed since the last byte taken (R168). -/
  | interByteTimerExpiry
  /-- Order 01h: the control byte and the print bytes (R49). -/
  | print (h : Head) (data : List Byte)
  /-- Order 02h: the control byte (R32). -/
  | move (h : Head) (data : List Byte)
  /-- Order 03h: drum, tape, layout and collation fields (R7). -/
  | select (h : Head) (data : List Byte)
  /-- Order 04h: entry, start index and drum elements (R107). -/
  | loadDrum (h : Head) (data : List Byte)
  /-- Order 05h: entry, form length, pitch, overflow channel, start line and stop sets (R109). -/
  | loadTape (h : Head) (data : List Byte)
  /-- Order 06h: the layout's bytes (R111, R180). -/
  | loadLayout (h : Head) (data : List Byte)
  /-- Order 07h: entry and 251 weights (R112). -/
  | loadCollation (h : Head) (data : List Byte)
  /-- Order 08h: sixteen dispositions (R113). -/
  | loadConditions (h : Head) (data : List Byte)
  /-- STATION 01h: job number and first page number (R8). -/
  | beginJob (h : Head) (params : List Byte)
  /-- STATION 02h (R9). -/
  | endJob (h : Head) (params : List Byte)
  /-- STATION 03h (R11). -/
  | stationHold (h : Head) (params : List Byte)
  /-- STATION 04h (R12). -/
  | stationRelease (h : Head) (params : List Byte)
  /-- STATION 05h (R13). -/
  | stationStop (h : Head) (params : List Byte)
  /-- STATION 06h (R14). -/
  | stationReset (h : Head) (params : List Byte)
  /-- STATION 07h: park slot (R16). -/
  | stationPark (h : Head) (params : List Byte)
  /-- STATION 08h: park slot and option byte (R17). -/
  | stationResume (h : Head) (params : List Byte)
  /-- STATION 09h: the quota (R18). -/
  | setQuota (h : Head) (params : List Byte)
  /-- STATION 0Ah: seconds (R18). -/
  | setTimer (h : Head) (params : List Byte)
  /-- STATION 0Bh: match value (R18). -/
  | setMatch (h : Head) (params : List Byte)
  /-- Order 0Ah: the clear mask (R173). -/
  | sense (h : Head) (data : List Byte)
  /-- Order 0Bh: the count (R25). -/
  | report (h : Head) (data : List Byte)
  /-- Order 0Dh (R174). -/
  | echo (h : Head) (data : List Byte)
  /-- DEVICE 01h: enable set and polarity (R176). -/
  | attentionSetup (h : Head) (params : List Byte)
  /-- DEVICE 02h: debounce settings, edge selections, imaging timer setting (R164). -/
  | imagerSetup (h : Head) (params : List Byte)
  /-- DEVICE 03h (R27). -/
  | deviceClear (h : Head) (params : List Byte)
  /-- DEVICE 04h: kind and entry (R117). -/
  | libraryClear (h : Head) (params : List Byte)
  /-- The station's running idle timer reaches its setting (R22). -/
  | idleTimerExpiry (station : StationId)
  /-- The raw level of a line goes to `level`, `true` for high (for the HOLD switch: on) (R151). -/
  | rawLevelChange (line : Line) (level : Bool)
  /-- READY has been low for its whole debounce setting (R154). -/
  | debouncedReadyFall
  /-- READY has been high for its whole debounce setting (R154). -/
  | debouncedReadyRise
  /-- FAULT has been high for its whole debounce setting (R154). -/
  | debouncedFaultRise
  /-- FAULT has been low for its whole debounce setting (R154). -/
  | debouncedFaultFall
  /-- COVER has been at `level` for its whole debounce setting (R154). -/
  | debouncedCoverChange (level : Bool)
  /-- MEDIA LOW has been at `level` for its whole debounce setting (R154). -/
  | debouncedMediaLowChange (level : Bool)
  /-- The HOLD switch has been on for its whole debounce setting (R153). -/
  | holdSwitchOn
  /-- The HOLD switch has been off for its whole debounce setting (R153). -/
  | holdSwitchOff
  /-- The output arbiter makes its choice (R140). -/
  | arbiterChoice
  /-- The PAGE CLOSE record of the page in flight has been sent (R156). -/
  | pageCloseSent
  /-- The PAGE VOID record has been sent (R156). -/
  | pageVoidSent
  /-- The imager's TAKEN reply; `sum` is the sum of the reply's bytes, 0 when its check byte is right (R184). -/
  | taken (sum : Byte)
  /-- The imager's REFUSED reply with its reason byte (R157, R184). -/
  | refused (reason : Byte) (sum : Byte)
  /-- The imager's IMAGED reply with the station and page it names (R158, R184). -/
  | imaged (station : Byte) (page : Half) (sum : Byte)
  /-- The imager's SPOILED reply with the station and page it names (R158, R184). -/
  | spoiled (station : Byte) (page : Half) (sum : Byte)
  /-- 2 s have passed in AWAITING TAKEN (R160). -/
  | replyTimerExpiry
  /-- The imaging timer setting has passed in IMAGING (R160). -/
  | imagingTimerExpiry
  /-- The imager link has been quiet for 50 ms after the bytes `bytes`, read since the last reply command (R184). -/
  | imagerLinkQuietTest (bytes : List Byte)
  /-- The computer offers a byte on the print link (R167, R168). -/
  | byteTaken (b : Byte)
  deriving DecidableEq, Repr

end Sys2Proof
end

