-- ==== Sys2Proof/Decode.lean ====
section
/-! DEFINITION. The command a table word spells. No row of spec/opcode_table.json gives bits (its reader's
counts: 0 rows with fixed bits, 0 with fields), so no word spells a command. Order codes and sub-functions are
read from the bytes of a frame, in Machine/PrintLink.lean. -/

namespace Sys2Proof

/-- The table gives no row any bits. -/
def decodeTableWord (_nbits _w : Nat) : Option Instr := none

end Sys2Proof
end

