-- ==== Sys2Proof/Machine/Tables.lean ====
section
/-! DEFINITION. The tables of the library (R105) as plain data: drum tables, format tapes, layouts,
collation tables, and the sixteen conditions with their dispositions. -/

namespace Sys2Proof.Machine

/-- One entry of a drum table (R48). -/
inductive DrumEntry where
  | glyph (g : Code)
  | blank
  | underscore
  | absent
  | substitute (g : Code)
  deriving DecidableEq, Repr, Inhabited

/-- A drum table: one entry for each print byte (R48). -/
abbrev DrumTable := Vector DrumEntry 256

/-- Lines per inch of a format tape (R109). -/
inductive Pitch where
  | six | eight
  deriving DecidableEq, Repr, Inhabited

/-- A format tape (R28, R109): `stops` has one stop set for each line 1 to `formLength`. -/
structure Tape where
  formLength : Nat
  pitch : Pitch
  overflow : Nat
  stops : List StopSet
  deriving DecidableEq, Repr, Inhabited

/-- A column window of a layout (R69). -/
structure Window where
  start : Nat
  width : Nat
  outX : Nat
  keyOffset : Nat
  keyLength : Nat
  check : Bool
  guide : Bool
  deriving DecidableEq, Repr, Inhabited

/-- A layout (R69). All positions are in dots; `windows` is in window order. -/
structure Layout where
  width : Nat
  depth : Nat
  topMargin : Nat
  reduction : Nat
  guideRow : Nat
  leftGuide : Nat
  rightGuide : Nat
  markBreaks : Bool
  windows : List Window
  deriving DecidableEq, Repr, Inhabited

/-- A collation table: 251 weights, weight 0 being the blank weight (R86). -/
abbrev CollTable := Vector Byte 251

/-- The sixteen conditions, in condition-number order (section 7.1, R113). -/
inductive Condition where
  | notOnDrum | substituted | excessStrike | strikeClash | lineTooLong | runaway | footClip | edgeClip
  | orderBreak | seamBreak | duplicateListing | stalePage | imagerRefused | repeatedSpoil | imagerTimeout
  | duplicateLine
  deriving DecidableEq, Repr

/-- What the part does when a condition is raised (R123 to R127). -/
inductive Disposition where
  | ignore | note | hold | stop
  deriving DecidableEq, Repr, Inhabited

/-- The condition table: one disposition for each condition, by condition number. -/
abbrev Dispositions := Vector Disposition 16

end Sys2Proof.Machine
end

