-- ==== Sys2Proof/Config.lean ====
section
/-! DEFINITION. The constants the manual fixes for the Lambrek 4132, and the model's free values. -/

namespace Sys2Proof.Config

/-- Page slots of the Page Store (R134). -/
def slotCount : Nat := 16

/-- Print positions of a line (R49). -/
def positions : Nat := 132

/-- Strikes a strike list keeps (R54). -/
def maxStrikes : Nat := 3

/-- Page summaries a report list keeps (R23). -/
def reportCap : Nat := 8

/-- Data bytes an order frame may carry (R168). -/
def maxData : Nat := 1023

/-- Dots per print position before reduction (R69). -/
def dotsPerPosition : Nat := 120

/-- The largest slot quota (R18). -/
def maxQuota : Nat := 12

/-- Where a page's spoil count saturates (R143). -/
def maxSpoils : Nat := 15

/-- The spoil count at which REPEATED SPOIL is raised (R162). -/
def repeatedSpoils : Nat := 3

/-- Where condition counts and the stray count saturate (R121, R163). -/
def maxCount : Nat := 65535

/-- FREE VALUE (DESIGN CHOICE, safe: log entry 2). What a station would read through a drum selection that names no VALID entry.
R105 says this never happens (every selected entry is VALID), and gives no value; nothing is known of it. -/
opaque noDrum : Machine.DrumTable

/-- FREE VALUE (log entry 2). The same for a format tape. -/
opaque noTape : Machine.Tape

/-- FREE VALUE (log entry 2). The same for a layout. -/
opaque noLayout : Machine.Layout

/-- FREE VALUE (log entry 2). The same for a collation table. -/
opaque noCollation : Machine.CollTable

/-- FREE VALUE (DESIGN CHOICE, safe: log entry 3). The carriage line a SEAM BREAK entry would name if the later window had no
first line; R93 gives every non-empty CHECK window one, so no run reaches it. -/
opaque noFirstLine : Nat

end Sys2Proof.Config
end

