-- ==== Sys2Proof/Machine/State.lean ====
section
/-! DEFINITION. Everything the manual gives the Lambrek 4132 to hold, as plain data, and the state after
power-on. INVENTORY.md lists each field with the rule that names it. -/

namespace Sys2Proof.Machine

/-! ## Station contexts (R1) and what belongs to a station -/

/-- The five states of a station (R1). -/
inductive StationState where
  | unloaded | ready | held | stopped | draining
  deriving DecidableEq, Repr

/-- The stop codes (R5). -/
inductive StopCode where
  | none | operator | conditionStop | secondCondition
  deriving DecidableEq, Repr

/-- A set of hold causes (R3). -/
structure Holds where
  order : Bool
  condition : Bool
  panel : Bool
  deriving DecidableEq, Repr

/-- The four table selections of a station or of a parked record (R1). -/
structure Selections where
  drum : Option (Fin 8)
  tape : Option (Fin 8)
  layout : Option (Fin 8)
  coll : Option (Fin 4)
  deriving DecidableEq, Repr

/-- LINES, LISTINGS, PAGES CLOSED and PAGES IMAGED (R19). -/
structure Counters where
  lines : Word
  listings : Word
  closed : Word
  imaged : Word
  deriving DecidableEq, Repr

/-- The idle timer (R21). No clock is held: expiries are commands (DESIGN CHOICE, safe: log entry 12). -/
inductive IdleTimer where
  | off | running | expired
  deriving DecidableEq, Repr

/-- A condition entry (R122). -/
structure CondEntry where
  kind : Condition
  page : Half
  line : Nat
  position : Option Nat
  column : Option Nat
  deriving DecidableEq, Repr

/-- A station's condition record (R121); counts by condition number. -/
structure CondRecord where
  first : Option CondEntry
  last : Option CondEntry
  counts : Vector Nat 16
  deriving DecidableEq, Repr

/-- A page summary (R24). -/
structure Summary where
  job : Half
  page : Half
  lines : Nat
  listings : Nat
  orderBreaks : Nat
  seamBreaks : Nat
  firstGuide : Option Text
  lastGuide : Option Text
  spoils : Nat
  blank : Bool
  clipped : Bool
  refused : Bool
  endJob : Bool
  deriving DecidableEq, Repr

/-- One impression at a print position (R48). -/
inductive Strike where
  | glyph (g : Code)
  | underscore
  deriving DecidableEq, Repr

/-- One print position of the pending line: its strike list in arrival order, and its excess mark (R52). -/
structure Position where
  strikes : List Strike
  excess : Bool
  deriving DecidableEq, Repr

/-- A cell record (R57). -/
structure Cell where
  base : Option Code
  second : Option Code
  heavy : Bool
  underscore : Bool
  deriving DecidableEq, Repr

/-- A cell placed on the plate (R78). -/
structure PlacedCell where
  x : Nat
  cell : Cell
  deriving DecidableEq, Repr

/-- A line record (R78); `breaks` is the break list (R97). -/
structure LineRecord where
  line : Nat
  y : Nat
  cells : List PlacedCell
  breaks : List Nat
  deriving DecidableEq, Repr

/-- A column record (R91). -/
structure ColumnRecord where
  firstKey : Option Key
  firstLine : Option Nat
  firstText : Option Text
  lastKey : Option Key
  lastText : Option Text
  listings : Nat
  breaks : Nat
  deriving DecidableEq, Repr

/-- A guide as placed on the plate: its text as cut for the imager, and its start x (R83). -/
structure PlacedGuide where
  text : Text
  x : Nat
  deriving DecidableEq, Repr

/-- The states of an owned page slot (R134). -/
inductive SlotState where
  | opened | waiting | sending | awaiting | spoiled
  deriving DecidableEq, Repr

/-- A slot record (R134). The owner is the station that holds it. `width`, `depth` and `markBreaks` are the page
frame (R80); `guideRow` and the placed guides are written at the close (R82), beside the captured texts (R101). -/
structure Page where
  state : SlotState
  job : Half
  page : Half
  width : Nat
  depth : Nat
  markBreaks : Bool
  lines : List LineRecord
  columns : List ColumnRecord
  listings : Nat
  seamBreaks : Nat
  guideRow : Nat
  firstPlaced : Option PlacedGuide
  lastPlaced : Option PlacedGuide
  firstGuide : Option Text
  lastGuide : Option Text
  clipped : Bool
  endJob : Bool
  spoils : Nat
  deriving DecidableEq, Repr

/-- The pending attention causes of one station (R175). -/
structure StationCauses where
  conditionNoted : Bool
  stopped : Bool
  countReached : Bool
  drained : Bool
  reportAdded : Bool
  deriving DecidableEq, Repr

/-- A station: its context (R1), pending line (R52), condition record (R121), pending attention causes (R175),
and its page slots: the OPEN one, and its queue of closed ones, head first (R134, R138; DEDUCED, safe: log entry 13). -/
structure Station where
  state : StationState
  holds : Holds
  stopCode : StopCode
  sel : Selections
  line : Nat
  overflow : Bool
  job : Half
  page : Half
  expected : Bool
  counters : Counters
  carry : Option Key
  quota : Nat
  timerSetting : Nat
  idle : IdleTimer
  matchValue : Word
  reports : List Summary
  strikes : Vector Position 132
  record : CondRecord
  causes : StationCauses
  openPage : Option Page
  queue : List Page
  deriving DecidableEq, Repr

/-- A station context record in a park slot (R15). -/
structure ParkRecord where
  job : Half
  page : Half
  line : Nat
  sel : Selections
  carry : Option Key
  counters : Counters
  matchValue : Word
  timerSetting : Nat
  deriving DecidableEq, Repr

/-! ## The Table Library (R105) -/

/-- The reference counts of the library entries (R116). -/
structure RefCounts where
  drum : Vector Nat 8
  tape : Vector Nat 8
  layout : Vector Nat 8
  coll : Vector Nat 4
  deriving DecidableEq, Repr

/-- The library: `none` is EMPTY, `some t` is VALID with table `t`. -/
structure Library where
  drums : Vector (Option DrumTable) 8
  tapes : Vector (Option Tape) 8
  layouts : Vector (Option Layout) 8
  colls : Vector (Option CollTable) 4
  refs : RefCounts
  dispositions : Dispositions
  deriving DecidableEq, Repr

/-! ## The Imager Port (R150) -/

/-- The states of the imager port (R150). -/
inductive PortState where
  | offline | idle | sending | awaitingTaken | imaging | faulted
  deriving DecidableEq, Repr

/-- One value for each of the five debounced lines (R151). -/
structure PerLine (α : Type) where
  ready : α
  mediaLow : α
  cover : α
  fault : α
  hold : α
  deriving DecidableEq, Repr

/-- A debounce setting (R151). -/
inductive Debounce where
  | off | ms2 | ms20 | ms200
  deriving DecidableEq, Repr

/-- An edge selection (R152). -/
inductive Edge where
  | none | rise | fall | both
  deriving DecidableEq, Repr

/-- The imager setup (R164): debounce settings, edge selections, imaging timer setting in seconds. -/
structure ImagerSetup where
  debounce : PerLine Debounce
  edges : PerLine Edge
  imaging : Nat
  deriving DecidableEq, Repr

/-- The imager port (R150). Levels are `true` for high; for the HOLD switch, on. `flight` is the owner of the page
in flight, which is the head of that station's queue (R140). `imagingTimer` holds the setting the running timer
started with (R164). `outgoing` is the records still going out on the imager link (R155, R156;
DESIGN CHOICE, unsafe: log entry 16, as `Link.lastRead`). `returned` says that the choice of the arbiter now due became due
by the reply just taken, with which a change of a line may still fall together (R161; the model's own field, DEDUCED, unsafe:
log entry 23). -/
structure Port where
  state : PortState
  flight : Option StationId
  replyTimer : Bool
  imagingTimer : Option Nat
  debounced : PerLine Bool
  raw : PerLine Bool
  stray : Nat
  setup : ImagerSetup
  outgoing : List (List Byte)
  returned : Bool
  deriving DecidableEq, Repr

/-! ## The Print Link (R167) and attention (R175) -/

/-- The receive states (R167). RECEIVING holds the lead byte and the bytes taken after it. DISCARDING keeps the
lead byte alone, for the lead echo. STATUS OWED holds the next byte of the owed status and those after it. -/
inductive Receive where
  | awaitLead
  | receiving (lead : Byte) (rest : List Byte)
  | discarding (lead : Byte)
  | statusOwed (next : Byte) (rest : List Byte)
  | linkHeld
  deriving DecidableEq, Repr

/-- The pending device-wide attention causes (R175). -/
structure DeviceCauses where
  imagerChange : Bool
  panelChange : Bool
  deriving DecidableEq, Repr

/-- One Bool for each of the seven cause kinds, in the order of the clear mask's bits (R180). -/
structure KindSet where
  conditionNoted : Bool
  stopped : Bool
  countReached : Bool
  drained : Bool
  reportAdded : Bool
  imagerChange : Bool
  panelChange : Bool
  deriving DecidableEq, Repr

/-- The Link Interface: receive state, inter-byte timer running or off (R168), the byte last read from the part
(the LD lines of a read), the device's attention causes, the enable set, and the polarity, `true` for active
high (R175). -/
structure Link where
  receive : Receive
  interByte : Bool
  lastRead : Option Byte
  causes : DeviceCauses
  enable : KindSet
  activeHigh : Bool
  deriving DecidableEq, Repr

/-- The whole part. `pointer` is the arbiter's (R140). `pending` is the queue of commands waiting, first in, first
out: the model's own field (DESIGN CHOICE, log entry 1). -/
structure State where
  stations : Vector Station 4
  parks : Vector (Option ParkRecord) 4
  library : Library
  port : Port
  pointer : StationId
  link : Link
  pending : List Instr
  deriving DecidableEq, Repr

/-! ## Why a command could stop -/

/-- Why the machine would stop with a fault. It never does: the manual gives every command an answer or an
effect in every state, so no reason exists. -/
inductive Fault where
  deriving DecidableEq, Repr

/-- Why the model would refuse a command. -/
inductive Refusal where
  /-- Raised by an arm of `exec` for a command the model gives no meaning; safe. No arm raises it. -/
  | notModelled (mnemonic : String)
  deriving DecidableEq, Repr

/-! ## Power-on values -/

def Selections.none : Selections := ⟨Option.none, Option.none, Option.none, Option.none⟩

def Counters.zero : Counters := ⟨0, 0, 0, 0⟩

def CondRecord.clear : CondRecord := ⟨none, none, Vector.replicate 16 0⟩

/-- A print position without strikes, its excess mark clear. -/
def Position.empty : Position := ⟨[], false⟩

/-- The pending line emptied (R52). -/
def emptyLine : Vector Position 132 := Vector.replicate 132 Position.empty

/-- A station after power-on (R1, R52, R121, R134, R175). Its pending causes are clear, CONDITION NOTED too: R175's table says
so, R132 says power-on does not clear that cause, and the model follows R175 (DESIGN CHOICE, unsafe: log entry 24). -/
def Station.powerOn : Station where
  state := .unloaded
  holds := ⟨false, false, false⟩
  stopCode := .none
  sel := Selections.none
  line := 1
  overflow := false
  job := 0
  page := 1
  expected := false
  counters := Counters.zero
  carry := none
  quota := 4
  timerSetting := 0
  idle := .off
  matchValue := 0
  reports := []
  strikes := emptyLine
  record := CondRecord.clear
  causes := ⟨false, false, false, false, false⟩
  openPage := none
  queue := []

/-- The default dispositions (R113). -/
def Dispositions.default : Dispositions :=
  #v[.ignore, .ignore, .ignore, .note, .note, .hold, .note, .note,
     .note, .note, .ignore, .note, .hold, .note, .note, .ignore]

/-- The library after power-on (R118). -/
def Library.powerOn : Library where
  drums := Vector.replicate 8 none
  tapes := Vector.replicate 8 none
  layouts := Vector.replicate 8 none
  colls := Vector.replicate 4 none
  refs := ⟨Vector.replicate 8 0, Vector.replicate 8 0, Vector.replicate 8 0, Vector.replicate 4 0⟩
  dispositions := Dispositions.default

/-- The imager setup after power-on (R164). -/
def ImagerSetup.powerOn : ImagerSetup where
  debounce := ⟨.ms20, .ms20, .ms20, .ms20, .ms20⟩
  edges := ⟨.both, .rise, .both, .rise, .both⟩
  imaging := 120

/-- The port after power-on (R150), with the lines' raw levels as the pins present them. -/
def Port.powerOn (raw : PerLine Bool) : Port where
  state := .offline
  flight := none
  replyTimer := false
  imagingTimer := none
  debounced := ⟨false, false, false, false, false⟩
  raw := raw
  stray := 0
  setup := ImagerSetup.powerOn
  outgoing := []
  returned := false

/-- The link after power-on (R167, R175). -/
def Link.powerOn : Link where
  receive := .awaitLead
  interByte := false
  lastRead := none
  causes := ⟨false, false⟩
  enable := ⟨true, true, true, true, true, true, true⟩
  activeHigh := false

/-- The part right after power-on, its lines low and its switch off (DESIGN CHOICE, unsafe: log entry 4 for the raw levels). -/
def State.reset : State where
  stations := Vector.replicate 4 Station.powerOn
  parks := Vector.replicate 4 none
  library := Library.powerOn
  port := Port.powerOn ⟨false, false, false, false, false⟩
  pointer := 3
  link := Link.powerOn
  pending := []

end Sys2Proof.Machine
end

