-- ==== Sys2Proof/Machine/Ops.lean ====
section
/-! DEFINITION. The shared operations: reading and writing stations and lines, hold causes and state changes
(R2, R5), the idle timer (R21), the condition unit (R120 to R128), report lists (R23), holdings (R135), library
references (R116) and the tables a station works through. -/

namespace Sys2Proof.Machine

/-! ## Places -/

/-- Station `i`. -/
def State.station (s : State) (i : StationId) : Station := s.stations[i]

/-- The part with station `i` replaced. -/
def State.setStation (s : State) (i : StationId) (st : Station) : State :=
  { s with stations := s.stations.set i st }

/-- The part with every station changed by `f`. -/
def State.mapStations (s : State) (f : Station → Station) : State :=
  { s with stations := #v[f (s.station 0), f (s.station 1), f (s.station 2), f (s.station 3)] }

/-- One line's value. -/
def PerLine.get {α : Type} (v : PerLine α) : Line → α
  | .ready => v.ready
  | .mediaLow => v.mediaLow
  | .cover => v.cover
  | .fault => v.fault
  | .hold => v.hold

/-- One line's value replaced. -/
def PerLine.put {α : Type} (v : PerLine α) (l : Line) (x : α) : PerLine α :=
  match l with
  | .ready => { v with ready := x }
  | .mediaLow => { v with mediaLow := x }
  | .cover => { v with cover := x }
  | .fault => { v with fault := x }
  | .hold => { v with hold := x }

/-! ## What a station holds -/

/-- No hold cause is present. -/
def Holds.isEmpty (h : Holds) : Bool := !h.order && !h.condition && !h.panel

/-- The station has pending strikes (R52): some strike list is non-empty. -/
def Station.hasStrikes (st : Station) : Bool := st.strikes.toList.any fun p => !p.strikes.isEmpty

/-- The station has an open page or pending strikes. -/
def Station.busy (st : Station) : Bool := st.openPage.isSome || st.hasStrikes

/-- The number of slots the station owns, in all states together (R135). -/
def Station.holdings (st : Station) : Nat := (if st.openPage.isSome then 1 else 0) + st.queue.length

/-- The number of owned slots of the whole Page Store. -/
def State.owned (s : State) : Nat :=
  (s.station 0).holdings + (s.station 1).holdings + (s.station 2).holdings + (s.station 3).holdings

/-- The Page Store can open a slot for station `i` (R136). -/
def State.canOpen (s : State) (i : StationId) : Bool :=
  (s.station i).holdings < (s.station i).quota && s.owned < Config.slotCount

/-- Drum, tape and layout are selected (R7, R14). -/
def Selections.complete (sel : Selections) : Bool := sel.drum.isSome && sel.tape.isSome && sel.layout.isSome

/-! ## The idle timer (R21) -/

/-- The running condition of R21. -/
def Station.meetsRunning (st : Station) : Bool :=
  st.timerSetting != 0 && st.state == .ready && st.busy

/-- The timer after an event that is no taken PRINT or MOVE and no SET TIMER: off when the running condition
fails, started when it holds and the timer was off, otherwise as it was (R21, R22). -/
def Station.refreshIdle (st : Station) : Station :=
  if st.meetsRunning then
    { st with idle := if st.idle = .off then .running else st.idle }
  else { st with idle := .off }

/-- The timer after a taken PRINT or MOVE (R21, R22) and after SET TIMER (R18): started afresh when the running
condition holds, off otherwise. -/
def Station.restartIdle (st : Station) : Station :=
  { st with idle := if st.meetsRunning then .running else .off }

/-! ## Station states (R2, R5) -/

/-- The station reaches READY, or HELD in its place when a hold cause is present (R2). -/
def Station.reachReady (st : Station) : Station :=
  { st with state := if st.holds.isEmpty then .ready else .held }

/-- The hold-cause set becomes `h`, with at least one cause added: a READY station goes to HELD, its idle timer to
off; other states are kept (R2, R11). -/
def Station.addHolds (h : Holds) (st : Station) : Station :=
  if st.state = .ready then { st with holds := h, state := .held, idle := .off }
  else { st with holds := h }

/-- The hold-cause set becomes `h`, with causes removed: a HELD station whose set is then empty goes to READY, and its
idle timer starts if the running condition holds (R2, R21). -/
def Station.removeHolds (h : Holds) (st : Station) : Station :=
  if st.state = .held ∧ h.isEmpty then
    Station.refreshIdle { st with holds := h, state := .ready }
  else { st with holds := h }

/-- Entry into STOPPED with a stop code (R5). The idle timer goes to off, expired or not (DEDUCED, unsafe: log entry 17). -/
def Station.stopWith (c : StopCode) (st : Station) : Station :=
  { st with state := .stopped, stopCode := c, idle := .off, causes := { st.causes with stopped := true } }

/-! ## The Condition Unit (R120 to R128) -/

/-- A condition's number (section 7.1). -/
def Condition.number : Condition → Fin 16
  | .notOnDrum => 0
  | .substituted => 1
  | .excessStrike => 2
  | .strikeClash => 3
  | .lineTooLong => 4
  | .runaway => 5
  | .footClip => 6
  | .edgeClip => 7
  | .orderBreak => 8
  | .seamBreak => 9
  | .duplicateListing => 10
  | .stalePage => 11
  | .imagerRefused => 12
  | .repeatedSpoil => 13
  | .imagerTimeout => 14
  | .duplicateLine => 15

/-- The count of a condition rises by one and saturates (R121). -/
def CondRecord.count (r : CondRecord) (k : Condition) : CondRecord :=
  { r with counts := r.counts.set k.number (min Config.maxCount (r.counts[k.number] + 1)) }

/-- The NOTE actions of R124 on the record and the attention causes. -/
def Station.noteEntry (e : CondEntry) (st : Station) : Station :=
  { st with
    record := { st.record with last := some e, first := some (st.record.first.getD e) }
    causes := { st.causes with conditionNoted := true } }

/-- What a disposition does at a station that is not STOPPED, after the count (R123 to R127). -/
def Station.applyDisposition (e : CondEntry) (st : Station) : Disposition → Station
  | .ignore => st
  | .note => st.noteEntry e
  | .hold =>
    if st.holds.condition then (st.noteEntry e).stopWith .secondCondition
    else (st.noteEntry e).addHolds { st.holds with condition := true }
  | .stop => (st.noteEntry e).stopWith .conditionStop

/-- The station with the raised condition counted (R121). -/
def Station.counted (k : Condition) (st : Station) : Station := { st with record := st.record.count k }

/-- A condition is raised at a station (R120): counted, and its disposition applied unless the station is STOPPED. -/
def Station.raise (table : Dispositions) (e : CondEntry) (st : Station) : Station :=
  if st.state = .stopped then st.counted e.kind
  else (st.counted e.kind).applyDisposition e table[e.kind.number]

/-- The raising is one that sets the CONDITION flag of the order it arose in (R131). -/
def Station.raiseNotes (table : Dispositions) (k : Condition) (st : Station) : Bool :=
  st.state != .stopped && table[k.number] != .ignore

/-! ## The work of one order -/

/-- A station in the course of an order, with what the order's ending status will report of the work: a condition
applied under NOTE, HOLD or STOP (R131), and a form end crossed or a page closed (R43). -/
structure Work where
  st : Station
  noted : Bool
  closed : Bool
  deriving DecidableEq, Repr

/-- A condition raised in the work of an order. -/
def Work.raise (table : Dispositions) (e : CondEntry) (w : Work) : Work :=
  { w with st := w.st.raise table e, noted := w.noted || w.st.raiseNotes table e.kind }

/-- A condition entry with the station's page number and carriage line. -/
def Station.entry (st : Station) (k : Condition) (pos col : Option Nat) : CondEntry :=
  ⟨k, st.page, st.line, pos, col⟩

/-! ## Report lists (R23) -/

/-- A summary is added at the end, the oldest dropped at 8, and REPORT ADDED is raised (R23). -/
def Station.addReport (x : Summary) (st : Station) : Station :=
  { st with
    reports := st.reports.drop (st.reports.length + 1 - Config.reportCap) ++ [x]
    causes := { st.causes with reportAdded := true } }

/-! ## Tables a station works through -/

/-- The tables of a station's selections, and the condition table, as they stand. `coll` is `none` under
collation NONE (R103). -/
structure Tools where
  drum : DrumTable
  tape : Tape
  layout : Layout
  coll : Option CollTable
  table : Dispositions
  deriving DecidableEq, Repr

/-- The tape of a selection; a free value where no VALID entry is named (log entry 2). -/
def Library.tapeOf (lib : Library) (sel : Selections) : Tape :=
  (sel.tape.bind fun i => lib.tapes[i]).getD Config.noTape

/-- The tables a station's selections name; free values where no VALID entry is named (log entry 2). -/
def Library.tools (lib : Library) (sel : Selections) : Tools where
  drum := (sel.drum.bind fun i => lib.drums[i]).getD Config.noDrum
  tape := lib.tapeOf sel
  layout := (sel.layout.bind fun i => lib.layouts[i]).getD Config.noLayout
  coll := sel.coll.map fun i => (lib.colls[i]).getD Config.noCollation
  table := lib.dispositions

/-! ## Reference counts (R116) -/

/-- The count of entry `o`, if any, falls by one. -/
def dropRef {n : Nat} (v : Vector Nat n) (o : Option (Fin n)) : Vector Nat n :=
  match o with
  | none => v
  | some i => v.set i (v[i] - 1)

/-- The count of entry `o`, if any, rises by one. -/
def takeRef {n : Nat} (v : Vector Nat n) (o : Option (Fin n)) : Vector Nat n :=
  match o with
  | none => v
  | some i => v.set i (v[i] + 1)

/-- A holder's selection goes from `o` to `o'`; the same selection changes no count (R116). -/
def moveRef {n : Nat} (v : Vector Nat n) (o o' : Option (Fin n)) : Vector Nat n :=
  if o = o' then v else takeRef (dropRef v o) o'

/-- Every entry of a holder's selections falls by one. -/
def RefCounts.release (r : RefCounts) (sel : Selections) : RefCounts :=
  ⟨dropRef r.drum sel.drum, dropRef r.tape sel.tape, dropRef r.layout sel.layout, dropRef r.coll sel.coll⟩

/-- A holder's selections change by a SELECT (R116). -/
def RefCounts.move (r : RefCounts) (old new : Selections) : RefCounts :=
  ⟨moveRef r.drum old.drum new.drum, moveRef r.tape old.tape new.tape,
   moveRef r.layout old.layout new.layout, moveRef r.coll old.coll new.coll⟩

/-- An occupied park slot's references are released. -/
def RefCounts.releasePark (r : RefCounts) : Option ParkRecord → RefCounts
  | none => r
  | some p => r.release p.sel

/-! ## Attention (R175) -/

/-- Some pending cause, at a station or device-wide, is of an enabled kind. -/
def State.attentionPending (s : State) : Bool :=
  let on (c : StationCauses) : Bool :=
    (c.conditionNoted && s.link.enable.conditionNoted) || (c.stopped && s.link.enable.stopped) ||
    (c.countReached && s.link.enable.countReached) || (c.drained && s.link.enable.drained) ||
    (c.reportAdded && s.link.enable.reportAdded)
  on (s.station 0).causes || on (s.station 1).causes || on (s.station 2).causes || on (s.station 3).causes ||
  (s.link.causes.imagerChange && s.link.enable.imagerChange) ||
  (s.link.causes.panelChange && s.link.enable.panelChange)

/-- The level of the ATTENTION output, `true` for high: active high or active low by the polarity (R175). -/
def State.attentionLevel (s : State) : Bool := s.attentionPending == s.link.activeHigh

/-! ## Runs of elements written into a table (R108, R110) -/

/-- The elements are written at index `i` and upward; those that run past `last` are written onto `last` in turn. -/
def writeRun {τ α : Type} (put : τ → Nat → α → τ) (last : Nat) : τ → Nat → List α → τ
  | t, _, [] => t
  | t, i, e :: es => writeRun put last (put t (min i last) e) (i + 1) es

/-- The run starting at `i` writes more than one element onto `last`, so LOAD STUCK is set. -/
def runSticks (last i n : Nat) : Bool := last + 1 < i + n

end Sys2Proof.Machine
end

