-- ==== Sys2Proof/Machine/Operands.lean ====
section
/-! DEFINITION. The bytes of frames and the fields of order data (R178 to R181): lead bytes, numbers, control
bytes, table elements, codes. A field whose encoding names no value reads as `none`, which its owner answers with
BAD FIELD. -/

namespace Sys2Proof.Machine

/-! ## Numbers, high byte first -/

def be16 (hi lo : Byte) : Half := hi ++ lo

def be32 (a b c d : Byte) : Word := (a ++ b) ++ (c ++ d)

/-- The two bytes of a number, high byte first. -/
def bytes16 (x : Half) : List Byte := [x.extractLsb' 8 8, x.extractLsb' 0 8]

/-- The four bytes of a number, high byte first. -/
def bytes32 (x : Word) : List Byte :=
  [x.extractLsb' 24 8, x.extractLsb' 16 8, x.extractLsb' 8 8, x.extractLsb' 0 8]

/-- A number as one byte, modulo 256 (DESIGN CHOICE, safe: log entry 18). -/
def byteOf (n : Nat) : Byte := BitVec.ofNat 8 n

/-- A number as two bytes. -/
def pairOf (n : Nat) : List Byte := bytes16 (BitVec.ofNat 16 n)

/-- A byte with up to eight named bits, bit 0 first. -/
def bitsByte (bits : List Bool) : Byte :=
  byteOf (bits.foldr (fun b acc => b.toNat + 2 * acc) 0)

/-- The sum of bytes modulo 256 (R179). -/
def sumBytes (bs : List Byte) : Byte := bs.foldl (· + ·) 0

/-- A frame or record with the check byte that makes its sum 0 (R179, R183). -/
def withCheck (bs : List Byte) : List Byte := bs ++ [- sumBytes bs]

/-! ## Lead bytes (R178) -/

/-- The fields of a lead byte. -/
structure Lead where
  station : StationId
  seq : Bool
  code : BitVec 5
  deriving DecidableEq, Repr

/-- Bits 7–6 station, bit 5 sequence bit, bits 4–0 order code. -/
def Lead.ofByte (b : Byte) : Lead where
  station := (b.extractLsb' 6 2).toFin
  seq := b.getLsbD 5
  code := b.extractLsb' 0 5

def Lead.toByte (l : Lead) : Byte := (BitVec.ofFin l.station ++ BitVec.ofBool l.seq) ++ l.code

/-- The bytes of an order frame whose bytes sum to `sum` (R178, R179). -/
def frameBytes (l : Lead) (data : List Byte) (sum : Byte) : List Byte :=
  let body := l.toByte :: pairOf data.length ++ data
  body ++ [sum - sumBytes body]

/-! ## Carriage control (R30, R180) -/

/-- The motion field of a control byte. -/
inductive Motion where
  | space (n : Nat)
  | skip (k : Nat)
  deriving DecidableEq, Repr

/-- A control byte: BEFORE or AFTER timing, and the motion. -/
structure Control where
  before : Bool
  motion : Motion
  deriving DecidableEq, Repr

/-- Bit 7 the timing, bit 6 the motion kind, bits 5–4 zero, bits 3–0 the count or channel; SPACE 0 to 3 and SKIP 1 to 12
alone are motions (R30, R181). -/
def Control.ofByte (b : Byte) : Option Control :=
  let n := (b.extractLsb' 0 4).toNat
  if b.extractLsb' 4 2 ≠ 0 then none
  else if b.getLsbD 6 then
    if 1 ≤ n ∧ n ≤ 12 then some ⟨b.getLsbD 7, .skip n⟩ else none
  else if n ≤ 3 then some ⟨b.getLsbD 7, .space n⟩ else none

/-! ## Entry numbers and selections -/

/-- An entry number 0 to n − 1. -/
def entryOf (n : Nat) (b : Byte) : Option (Fin n) :=
  if h : b.toNat < n then some ⟨b.toNat, h⟩ else none

/-- A field of SELECT: the outer `none` is BAD FIELD. `keep` is KEEP, `use none` is the collation field's NONE. -/
inductive Choice (n : Nat) where
  | keep
  | use (e : Option (Fin n))
  deriving DecidableEq, Repr

/-- A drum, tape or layout byte of SELECT (R180). -/
def Choice.ofByte (b : Byte) : Option (Choice 8) :=
  if b = 0xFF then some .keep else (entryOf 8 b).map fun e => .use (some e)

/-- The collation byte of SELECT (R180). -/
def Choice.ofCollByte (b : Byte) : Option (Choice 4) :=
  if b = 0xFF then some .keep else if b = 0xFE then some (.use none)
  else (entryOf 4 b).map fun e => .use (some e)

/-- The selection a field leaves. -/
def Choice.apply {n : Nat} (c : Choice n) (old : Option (Fin n)) : Option (Fin n) :=
  match c with
  | .keep => old
  | .use e => e

/-! ## Table elements -/

/-- A glyph code 1 to 250 of a drum element (R107). -/
def codeOf (b : Byte) : Option Code :=
  if h : 1 ≤ b.toNat ∧ b.toNat < 251 then some ⟨b.toNat, h.2⟩ else none

/-- A drum element: a kind, then a glyph code (R180). The glyph byte is read for GLYPH and SUBSTITUTE only (R107). -/
def drumEntryOf (kind g : Byte) : Option DrumEntry :=
  if kind = 0x00 then some .absent
  else if kind = 0x01 then (codeOf g).map .glyph
  else if kind = 0x02 then some .blank
  else if kind = 0x03 then some .underscore
  else if kind = 0x04 then (codeOf g).map .substitute
  else none

/-- A stop set: bits 12 to 15 of the 16-bit value are 0 (R180, R181). -/
def stopSetOf (hi lo : Byte) : Option StopSet :=
  let v := be16 hi lo
  if v.extractLsb' 12 4 = 0 then some (v.extractLsb' 0 12) else none

/-- The 2-byte elements of a load; `none` for an odd number of bytes, which fits no length (R179). -/
def elementPairs : List Byte → Option (List (Byte × Byte))
  | [] => some []
  | [_] => none
  | a :: b :: rest => (elementPairs rest).map ((a, b) :: ·)

/-- Every element read, or `none` if one names no value. -/
def readAll {α β : Type} (f : α → Option β) : List α → Option (List β)
  | [] => some []
  | a :: as => (f a).bind fun b => (readAll f as).map (b :: ·)

/-- A line pitch byte (R180). -/
def pitchOf (b : Byte) : Option Pitch :=
  if b = 0x06 then some .six else if b = 0x08 then some .eight else none

/-- A disposition code (R180). -/
def dispositionOf (b : Byte) : Option Disposition :=
  if b = 0x00 then some .ignore else if b = 0x01 then some .note
  else if b = 0x02 then some .hold else if b = 0x03 then some .stop else none

/-- A debounce code (R180). -/
def debounceOf (b : Byte) : Option Debounce :=
  if b = 0x00 then some .off else if b = 0x01 then some .ms2
  else if b = 0x02 then some .ms20 else if b = 0x03 then some .ms200 else none

/-- An edge selection code (R180). -/
def edgeOf (b : Byte) : Option Edge :=
  if b = 0x00 then some .none else if b = 0x01 then some .rise
  else if b = 0x02 then some .fall else if b = 0x03 then some .both else none

/-- An enable byte: bit 7 is 0 (R181). -/
def enableOf (b : Byte) : Option KindSet :=
  if b.getLsbD 7 then none
  else some ⟨b.getLsbD 0, b.getLsbD 1, b.getLsbD 2, b.getLsbD 3, b.getLsbD 4, b.getLsbD 5, b.getLsbD 6⟩

/-- The five values of a per-line field group, in the order READY, MEDIA LOW, COVER, FAULT, HOLD switch. -/
def perLineOf {α : Type} (f : Byte → Option α) (a b c d e : Byte) : Option (PerLine α) :=
  (f a).bind fun a' => (f b).bind fun b' => (f c).bind fun c' => (f d).bind fun d' =>
    (f e).map fun e' => ⟨a', b', c', d', e'⟩

/-- A window description's seven bytes and whether its flag byte has only the bits shown (R180, R181). -/
def windowOf (s c xh xl ko kl f : Byte) : Option Window :=
  if f.extractLsb' 2 6 = 0 then
    some ⟨s.toNat, c.toNat, (be16 xh xl).toNat, ko.toNat, kl.toNat, f.getLsbD 0, f.getLsbD 1⟩
  else none

/-- The window descriptions of a layout, seven bytes each; the outer `none` is BAD FIELD. -/
def windowsOf : List Byte → Option (List Window)
  | s :: c :: xh :: xl :: ko :: kl :: f :: rest =>
    (windowOf s c xh xl ko kl f).bind fun w => (windowsOf rest).map (w :: ·)
  | _ => some []

end Sys2Proof.Machine
end

