-- ==== Sys2Proof/Machine/Geometry.lean ====
section
/-! DEFINITION. Plate arithmetic and the layout's own checks (R69 to R74, R83). -/

namespace Sys2Proof.Machine

/-- `rnd (a / 100)`: the nearest whole number, an exact half rounded up (R71). -/
def rnd (a : Nat) : Nat := (a + 50) / 100

/-- The line pitch P in dots before reduction (R69). -/
def Pitch.dots : Pitch → Nat
  | .six => 200
  | .eight => 150

/-- The plate row of carriage line `n` (R72). -/
def plateRow (l : Layout) (p : Pitch) (n : Nat) : Nat := l.topMargin + rnd ((n - 1) * p.dots * l.reduction)

/-- The cell width of a page (R74). -/
def Layout.cellWidth (l : Layout) : Nat := rnd (Config.dotsPerPosition * l.reduction)

/-- The plate position of print position `p` in a window (R74). -/
def Layout.plateX (l : Layout) (w : Window) (p : Nat) : Nat :=
  w.outX + rnd ((p - w.start) * Config.dotsPerPosition * l.reduction)

/-- The print position lies in the window's source range (R73). -/
def Window.covers (w : Window) (p : Nat) : Bool := w.start ≤ p && p < w.start + w.width

/-- The first window, counting from `i`, that holds print position `p`, with its number (R73). -/
def windowAt (p : Nat) : Nat → List Window → Option (Nat × Window)
  | _, [] => none
  | i, w :: ws => if w.covers p then some (i, w) else windowAt p (i + 1) ws

/-- The end E of a window's plate span (R70). -/
def Layout.spanEnd (l : Layout) (w : Window) : Nat :=
  w.outX + rnd ((w.width - 1) * Config.dotsPerPosition * l.reduction) + l.cellWidth

/-- The source ranges share no print position (R70 condition 2). -/
def Window.sourcesApart (a b : Window) : Bool := a.start + a.width ≤ b.start || b.start + b.width ≤ a.start

/-- The plate spans do not overlap (R70 condition 3). -/
def Layout.spansApart (l : Layout) (a b : Window) : Bool := l.spanEnd a ≤ b.outX || l.spanEnd b ≤ a.outX

/-- A window's fields lie in their ranges (R69). -/
def Window.inRange (w : Window) : Bool :=
  1 ≤ w.start && w.start ≤ 132 && 1 ≤ w.width && w.width ≤ 132 && w.start + w.width - 1 ≤ 132 &&
  w.outX ≤ 24000 && w.keyOffset ≤ w.width - 1 &&
  1 ≤ w.keyLength && w.keyLength ≤ 24 && w.keyOffset + w.keyLength ≤ w.width

/-- Each element stands in the relation to every later one. -/
def pairwiseB {α : Type} (r : α → α → Bool) : List α → Bool
  | [] => true
  | a :: as => as.all (r a) && pairwiseB r as

/-- A layout that LOAD LAYOUT takes (R69, R70). -/
def Layout.valid (l : Layout) : Bool :=
  1 ≤ l.width && l.width ≤ 24000 && 1 ≤ l.depth && l.depth ≤ 30000 && l.topMargin ≤ 30000 &&
  40 ≤ l.reduction && l.reduction ≤ 100 && l.guideRow ≤ l.depth &&
  l.leftGuide ≤ 24000 && l.rightGuide ≤ 24000 &&
  1 ≤ l.windows.length && l.windows.length ≤ 6 && l.windows.all Window.inRange &&
  pairwiseB Window.sourcesApart l.windows && pairwiseB l.spansApart l.windows

/-- The codes of a guide that fit the page width, the first cell starting at `x` (R83). -/
def fitGuide (width cw : Nat) : Nat → Text → Text
  | _, [] => []
  | x, c :: cs => if x + cw ≤ width then c :: fitGuide width cw (x + cw) cs else []

/-- A guide placed from its start x, shortened to the cells that fit, absent if none does (R83). -/
def placeGuide (l : Layout) (x : Nat) (t : Text) : Option PlacedGuide :=
  match fitGuide l.width l.cellWidth x t with
  | [] => none
  | c :: cs => some ⟨c :: cs, x⟩

end Sys2Proof.Machine
end

