-- ==== Sys2Proof/Machine/OrderCheck.lean ====
section
/-! DEFINITION. Order Check: keys, texts and their comparison, the in-column check and column records, the seam
chain and guide capture (R86 to R103). -/

namespace Sys2Proof.Machine

/-! ## Key fields, keys and texts -/

/-- The cells of a window's key field (R87), from the line's cell records in print-position order. -/
def keyField (w : Window) (cells : List Cell) : List Cell :=
  (cells.drop (w.start + w.keyOffset - 1)).take w.keyLength

/-- The line is a listing in the window (R87). -/
def isListing (w : Window) (cells : List Cell) : Bool :=
  (w.check || w.guide) && (keyField w cells).any fun c => c.base.isSome

/-- A cell's glyph code, 0 without a base glyph (R89). -/
def Cell.code (c : Cell) : Code := c.base.getD 0

/-- A cell's weight: that of its base glyph, the blank weight without one (R86). -/
def CollTable.weight (t : CollTable) (c : Cell) : Byte := t[c.code]

/-- The list without the run of `x` at its end. -/
def trimEnd {α : Type} [DecidableEq α] (x : α) (l : List α) : List α :=
  (l.reverse.dropWhile (· = x)).reverse

/-- The key formed from a key field's cells (R88). -/
def formKey (t : CollTable) (field : List Cell) : Key :=
  trimEnd t[(0 : Code)] ((field.map (CollTable.weight t)).filter (· ≠ 0))

/-- The text formed from a key field's cells (R89). -/
def formText (field : List Cell) : Text := trimEnd 0 (field.map Cell.code)

/-- Keys compared weight by weight, the shorter lesser where one runs out (R90). -/
def compareKeys : Key → Key → Ordering
  | [], [] => .eq
  | [], _ :: _ => .lt
  | _ :: _, [] => .gt
  | a :: as, b :: bs => if a < b then .lt else if b < a then .gt else compareKeys as bs

/-! ## Column records -/

/-- A column record at page open (R91). -/
def ColumnRecord.fresh : ColumnRecord := ⟨none, none, none, none, none, 0, 0⟩

/-- The in-column check's outcome: the key's comparison with the window's last key, if both are there (R94). -/
def columnOutcome (c : ColumnRecord) (key : Option Key) : Option Ordering :=
  key.bind fun k => c.lastKey.map fun last => compareKeys k last

/-- The column record after a listing (R93), its break count risen for a break (R94). -/
def ColumnRecord.enter (c : ColumnRecord) (w : Window) (line : Nat) (key : Option Key) (text : Text) : ColumnRecord where
  firstKey := if c.firstKey.isNone then key else c.firstKey
  firstLine := if w.check && c.firstLine.isNone then some line else c.firstLine
  firstText := if w.guide && c.firstText.isNone then some text else c.firstText
  lastKey := if key.isSome then key else c.lastKey
  lastText := if w.guide then some text else c.lastText
  listings := c.listings + 1
  breaks := if columnOutcome c key = some .lt then c.breaks + 1 else c.breaks

/-- The condition the in-column check raises (R94, R95). -/
def raiseOutcome (t : Tools) (i : Nat) (w : Window) (o : Option Ordering) (work : Work) : Work :=
  let entry (k : Condition) := work.st.entry k (some (w.start + w.keyOffset)) (some i)
  match o with
  | some .lt => work.raise t.table (entry .orderBreak)
  | some .eq => work.raise t.table (entry .duplicateListing)
  | _ => work

/-- What the visit of the windows leaves: the column records, the line's break list, and whether the line was a
listing in a window with CHECK. -/
structure Visit where
  columns : List ColumnRecord
  breaks : List Nat
  checked : Bool
  deriving DecidableEq, Repr

/-- The windows from number `i` upward are visited in window order (R92). -/
def visitWindows (t : Tools) (cells : List Cell) : Nat → List Window → List ColumnRecord → Work → Visit × Work
  | i, w :: ws, c :: cs, work =>
    if isListing w cells then
      let key := if w.check then t.coll.map fun tbl => formKey tbl (keyField w cells) else none
      let o := columnOutcome c key
      let next := visitWindows t cells (i + 1) ws cs (raiseOutcome t i w o work)
      ({ columns := c.enter w work.st.line key (formText (keyField w cells)) :: next.1.columns
         breaks := if o = some .lt then i :: next.1.breaks else next.1.breaks
         checked := w.check || next.1.checked }, next.2)
    else
      let next := visitWindows t cells (i + 1) ws cs work
      ({ next.1 with columns := c :: next.1.columns }, next.2)
  | _, _, cs, work => (⟨cs, [], false⟩, work)

/-! ## The seam chain (R98 to R100) -/

/-- A seam whose later window's first key is less than the key before it raises SEAM BREAK (R98, R99). -/
def seamRaise (t : Tools) (i : Nat) (c : ColumnRecord) (work : Work) : Work :=
  work.raise t.table ⟨.seamBreak, work.st.page, c.firstLine.getD Config.noFirstLine, none, some i⟩

/-- The seam chain from window `i` upward: `before` is the key the next non-empty CHECK window is compared with.
Answers the breaks found and the key left at the end (R98). -/
def seamChain (t : Tools) : Nat → List Window → List ColumnRecord → Option Key → Work → (Nat × Option Key) × Work
  | i, w :: ws, c :: cs, before, work =>
    if w.check && c.listings != 0 then
      let broken := columnOutcome { c with lastKey := before } c.firstKey = some .lt
      let next := seamChain t (i + 1) ws cs c.lastKey (if broken then seamRaise t i c work else work)
      ((next.1.1 + (if broken then 1 else 0), next.1.2), next.2)
    else seamChain t (i + 1) ws cs before work
  | _, _, _, before, work => ((0, before), work)

/-! ## Guide capture (R101) -/

/-- The first guide: the first text of the first window with GUIDE and a listing. -/
def firstGuideOf : List Window → List ColumnRecord → Option Text
  | w :: ws, c :: cs => if w.guide && c.listings != 0 then c.firstText else firstGuideOf ws cs
  | _, _ => none

/-- The last guide: the last text of the last window with GUIDE and a listing, `found` standing for the windows
before. -/
def lastGuideOf (found : Option Text) : List Window → List ColumnRecord → Option Text
  | w :: ws, c :: cs => lastGuideOf (if w.guide && c.listings != 0 then c.lastText else found) ws cs
  | _, _ => found

end Sys2Proof.Machine
end

