-- ==== Sys2Proof/Machine/Strikes.lean ====
section
/-! DEFINITION. The Strike Composer: drum translation, strike recording and cell classification (R48 to R58). -/

namespace Sys2Proof.Machine

/-- The strike a drum entry gives (R48). -/
def DrumEntry.strike : DrumEntry → Option Strike
  | .glyph g => some (.glyph g)
  | .substitute g => some (.glyph g)
  | .underscore => some .underscore
  | .blank => none
  | .absent => none

def DrumEntry.isAbsent : DrumEntry → Bool
  | .absent => true
  | _ => false

def DrumEntry.isSubstitute : DrumEntry → Bool
  | .substitute _ => true
  | _ => false

/-- The drum entry a print byte indexes. -/
def lookDrum (d : DrumTable) (b : Byte) : DrumEntry := d[b.toFin]

/-- A strike arrives at print position `p`: added to the list, or dropped as the fourth or a later one, EXCESS
STRIKE being raised at the first drop since the line was emptied (R54). -/
def addStrike (t : Tools) (p : Nat) (k : Strike) (w : Work) : Work :=
  match w.st.strikes[p - 1]? with
  | none => w
  | some c =>
    if c.strikes.length < Config.maxStrikes then
      { w with st := { w.st with
          strikes := w.st.strikes.setIfInBounds (p - 1) { c with strikes := c.strikes ++ [k] } } }
    else if c.excess then w
    else
      Work.raise t.table (w.st.entry .excessStrike (some p) none)
        { w with st := { w.st with strikes := w.st.strikes.setIfInBounds (p - 1) { c with excess := true } } }

/-- The print bytes from position `p` upward are recorded in ascending position (R53). -/
def strikeFrom (t : Tools) : Nat → List Byte → Work → Work
  | _, [], w => w
  | p, b :: bs, w =>
    strikeFrom t (p + 1) bs
      (match (lookDrum t.drum b).strike with
       | none => w
       | some k => addStrike t p k w)

/-- The lowest print position, counting from `p`, whose byte meets an entry of the kind (R50). -/
def lowestWhere (d : DrumTable) (kind : DrumEntry → Bool) : Nat → List Byte → Option Nat
  | _, [] => none
  | p, b :: bs => if kind (lookDrum d b) then some p else lowestWhere d kind (p + 1) bs

/-- A condition of the order's strikes, raised when a byte of its kind stood at position `p` (R50). -/
def raiseAt (t : Tools) (k : Condition) (p : Option Nat) (w : Work) : Work :=
  match p with
  | none => w
  | some n => w.raise t.table (w.st.entry k (some n) none)

/-- The print bytes of a PRINT are recorded, with the conditions of R53 in their order (R49 to R54). -/
def recordStrikes (t : Tools) (bytes : List Byte) (w : Work) : Work :=
  let struck := bytes.take Config.positions
  let w1 := if Config.positions < bytes.length then w.raise t.table (w.st.entry .lineTooLong none none) else w
  let w2 := strikeFrom t 1 struck w1
  let w3 := raiseAt t .notOnDrum (lowestWhere t.drum DrumEntry.isAbsent 1 struck) w2
  raiseAt t .substituted (lowestWhere t.drum DrumEntry.isSubstitute 1 struck) w3

/-! ## Classification (R57) -/

/-- The glyphs of a strike list, in arrival order. -/
def glyphsOf (l : List Strike) : List Code :=
  l.filterMap fun
    | .glyph g => some g
    | .underscore => none

/-- The distinct elements, each where it first stands. -/
def distinct : List Code → List Code
  | [] => []
  | g :: gs => g :: (distinct gs).filter (· ≠ g)

/-- The cell record of a strike list (R57). -/
def classify (l : List Strike) : Cell :=
  let under := l.contains .underscore
  match distinct (glyphsOf l) with
  | [] => ⟨none, none, false, under⟩
  | [g] => ⟨some g, none, 2 ≤ (glyphsOf l).length, under⟩
  | [g, h] => ⟨some g, some h, false, under⟩
  | g :: h :: _ :: _ => ⟨some g, some h, false, false⟩

/-- Three distinct glyphs stand in the list (R58). -/
def clashes (l : List Strike) : Bool := 3 ≤ (distinct (glyphsOf l)).length

/-- The cell has neither a base glyph nor an underscore (R57). -/
def Cell.isEmpty (c : Cell) : Bool := c.base.isNone && !c.underscore

/-- The lowest clashing print position, counting from `p` (R58). -/
def lowestClash : Nat → List Position → Option Nat
  | _, [] => none
  | p, c :: cs => if clashes c.strikes then some p else lowestClash (p + 1) cs

/-- The order's bytes 1 to 132 make at least one strike (R64). -/
def anyStrike (d : DrumTable) (bytes : List Byte) : Bool :=
  (bytes.take Config.positions).any fun b => (lookDrum d b).strike.isSome

end Sys2Proof.Machine
end

