-- ==== Sys2Proof/Machine/PageAssembler.lean ====
section
/-! DEFINITION. The Page Assembler and the commit: opening a page, placing a committed line, closing a page
(R56, R75 to R84, R92 to R101). -/

namespace Sys2Proof.Machine

/-! ## Opening (R80, R91) -/

/-- The slot record of a page at its opening. The guide row is written at the close (R82) and nothing reads it before; until
then the record holds 0 (DESIGN CHOICE, safe: log entry 22). -/
def Page.opening (st : Station) (l : Layout) : Page where
  state := .opened
  job := st.job
  page := st.page
  width := l.width
  depth := l.depth
  markBreaks := l.markBreaks
  lines := []
  columns := l.windows.map fun _ => ColumnRecord.fresh
  listings := 0
  seamBreaks := 0
  guideRow := 0
  firstPlaced := none
  lastPlaced := none
  firstGuide := none
  lastGuide := none
  clipped := false
  endJob := false
  spoils := 0

/-! ## Placing (R75) -/

/-- The cells from print position `p` upward: those placed, in print-position order, and the lowest position dropped
at the edge with its window (R75 steps 2 and 3). -/
def placeCells (l : Layout) : Nat → List Cell → List PlacedCell × Option (Nat × Nat)
  | _, [] => ([], none)
  | p, c :: cs =>
    let rest := placeCells l (p + 1) cs
    if c.isEmpty then rest
    else
      match windowAt p 0 l.windows with
      | none => rest
      | some (i, w) =>
        let x := l.plateX w p
        if x + l.cellWidth ≤ l.width then (⟨x, c⟩ :: rest.1, rest.2) else (rest.1, some (p, i))

/-- A cell put in its place in ascending x. -/
def insertByX (a : PlacedCell) : List PlacedCell → List PlacedCell
  | [] => [a]
  | b :: bs => if a.x ≤ b.x then a :: b :: bs else b :: insertByX a bs

/-- Placed cells in ascending x (R78). -/
def sortByX (l : List PlacedCell) : List PlacedCell := l.foldr insertByX []

/-- A page's CLIPPED flag set (R79). -/
def Page.clip (p : Page) : Page := { p with clipped := true }

/-- The line record of a line's placed cells filed at the end, none for a line without one (R75 step 4, R78). -/
def Page.file (line y : Nat) (cells : List PlacedCell) (breaks : List Nat) (p : Page) : Page :=
  if cells.isEmpty then p else { p with lines := p.lines ++ [⟨line, y, cells, breaks⟩] }

/-- A committed line goes to the station's open page `p`: foot test, placement, edge test, order check, filing, and
the counts of LISTINGS (R75, R92, R96, R97). The break list found by Order Check is filed with the line record. -/
def takeLine (t : Tools) (cells : List Cell) (p : Page) (w : Work) : Work :=
  let line := w.st.line
  let y := plateRow t.layout t.tape.pitch line
  let foot := t.layout.depth < y
  let placed := placeCells t.layout 1 cells
  let dropped := if foot then none else placed.2
  let w1 :=
    if foot then w.raise t.table (w.st.entry .footClip none none)
    else match placed.2 with
      | none => w
      | some (pos, col) => w.raise t.table (w.st.entry .edgeClip (some pos) (some col))
  let p1 := if foot || dropped.isSome then p.clip else p
  let v := visitWindows t cells 0 t.layout.windows p1.columns w1
  let p2 := Page.file line y (if foot then [] else sortByX placed.1) v.1.breaks { p1 with columns := v.1.columns }
  let st := v.2.st
  if v.1.checked then
    { v.2 with st := { st with
        openPage := some { p2 with listings := p2.listings + 1 }
        counters := { st.counters with listings := st.counters.listings + 1 } } }
  else { v.2 with st := { st with openPage := some p2 } }

/-! ## Commit (R56) -/

/-- The pending line is classified and emptied; a non-empty line counts in LINES and goes to the open page, which is
opened first if the form has none (R56, R58, R80). -/
def commit (t : Tools) (w : Work) : Work :=
  let positions := w.st.strikes.toList
  let cells := positions.map fun c => classify c.strikes
  let w1 := raiseAt t .strikeClash (lowestClash 1 positions) w
  let w2 :=
    if cells.all Cell.isEmpty then w1
    else
      let st := { w1.st with counters := { w1.st.counters with lines := w1.st.counters.lines + 1 } }
      takeLine t cells (st.openPage.getD (Page.opening st t.layout)) { w1 with st := st }
  { w2 with st := { w2.st with strikes := emptyLine } }

/-! ## Closing (R82) -/

/-- The page number after `n`: 65535 goes to 1 (R41). -/
def nextPage (n : Half) : Half := if n = 0xFFFF then 1 else n + 1

/-- Order Check completes page `p` and the seam chain sets the carry key (R98 to R100). The page comes back with its
seam break count. -/
def completePage (t : Tools) (p : Page) (w : Work) : Page × Work :=
  if t.coll.isNone then (p, w)
  else
    let r := seamChain t 0 t.layout.windows p.columns w.st.carry w
    ({ p with seamBreaks := p.seamBreaks + r.1.1 }, { r.2 with st := { r.2.st with carry := r.1.2 } })

/-- The guides captured and placed (R101, R83), and the END JOB mark written (R82). -/
def Page.finish (l : Layout) (endJob : Bool) (p : Page) : Page :=
  let first := firstGuideOf l.windows p.columns
  let last := lastGuideOf none l.windows p.columns
  { p with
    state := .waiting
    guideRow := l.guideRow
    firstGuide := first
    lastGuide := last
    firstPlaced := first.bind (placeGuide l l.leftGuide)
    lastPlaced := last.bind fun g => placeGuide l (l.rightGuide - g.length * l.cellWidth) g
    endJob := endJob }

/-- The open page `p` closes and joins the tail of the station's queue (R82, R138). -/
def closePage (t : Tools) (endJob : Bool) (p : Page) (w : Work) : Work :=
  let r := completePage t p w
  let st := r.2.st
  { r.2 with st := { st with openPage := none, queue := st.queue ++ [r.1.finish t.layout endJob] } }

/-- PAGES CLOSED rises and the page number advances (R38, R9 step 2). -/
def Station.countPage (st : Station) : Station :=
  { st with counters := { st.counters with closed := st.counters.closed + 1 }, page := nextPage st.page }

end Sys2Proof.Machine
end

