-- ==== Sys2Proof/Machine/Carriage.lean ====
section
/-! DEFINITION. The Carriage Unit: spaces, skips, form ends and blank forms (R28 to R42). -/

namespace Sys2Proof.Machine

/-- The stop set of line `n` holds channel `k` (R28). -/
def Tape.holdsChannel (t : Tape) (n k : Nat) : Bool :=
  match t.stops[n - 1]? with
  | none => false
  | some set => set.getLsbD (k - 1)

/-- The first of `count` lines from `n` upward that holds channel `k` (R36). -/
def Tape.findStop (t : Tape) (k : Nat) : Nat → Nat → Option Nat
  | _, 0 => none
  | n, count + 1 => if t.holdsChannel n k then some n else t.findStop k (n + 1) count

/-- Some line 1 to F holds channel `k`; otherwise a SKIP to it is a RUNAWAY (R37). -/
def Tape.hasChannel (t : Tape) (k : Nat) : Bool := (t.findStop k 1 t.formLength).isSome

/-- The motion leaves the line, so it commits the pending line (R33, R64). -/
def Motion.commits (t : Tape) : Motion → Bool
  | .space n => n != 0
  | .skip k => t.hasChannel k

/-- The summary of a blank form (R24, R40). -/
def Station.blankSummary (st : Station) : Summary where
  job := st.job
  page := st.page
  lines := 0
  listings := 0
  orderBreaks := 0
  seamBreaks := 0
  firstGuide := none
  lastGuide := none
  spoils := 0
  blank := true
  clipped := false
  refused := false
  endJob := false

/-- A form end: the page closes or a blank form ends, then the counts and the new form (R38 to R41). -/
def formEnd (t : Tools) (w : Work) : Work :=
  let w1 :=
    match w.st.openPage with
    | some p => closePage t false p w
    | none => { w with st := w.st.addReport w.st.blankSummary }
  { w1 with st := { w1.st.countPage with overflow := false, line := 1 }, closed := true }

/-- One step of a SPACE (R34, R35): a form end clears the mark, and the line stepped onto may then set it. R42 says that a
SPACE 3 from line 2 of a two-line tape ends with the mark clear, R35 that a line 1 holding the overflow channel sets the mark
at the very step that cleared it: on such a tape the model follows R35 (DESIGN CHOICE, unsafe: log entry 19). -/
def spaceStep (t : Tools) (w : Work) : Work :=
  let w1 := if w.st.line < t.tape.formLength then { w with st := { w.st with line := w.st.line + 1 } } else formEnd t w
  if t.tape.holdsChannel w1.st.line t.tape.overflow then { w1 with st := { w1.st with overflow := true } } else w1

/-- The steps of a SPACE, one after another (R34). -/
def spaceSteps (t : Tools) : Nat → Work → Work
  | 0, w => w
  | n + 1, w => spaceSteps t n (spaceStep t w)

/-- The carriage goes to the next line holding channel `k`, which the tape has (R36). -/
def skipTo (t : Tools) (k : Nat) (w : Work) : Work :=
  match t.tape.findStop k (w.st.line + 1) (t.tape.formLength - w.st.line) with
  | some n => { w with st := { w.st with line := n } }
  | none =>
    let w1 := formEnd t w
    match t.tape.findStop k 1 t.tape.formLength with
    | some n => { w1 with st := { w1.st with line := n } }
    | none => w1

/-- A motion with its commit (R33): SPACE 0 does nothing, a SKIP to a channel no line holds raises RUNAWAY and
leaves carriage and line where they are (R37). -/
def carry (t : Tools) (m : Motion) (w : Work) : Work :=
  if m.commits t.tape then
    match m with
    | .space n => spaceSteps t n (commit t w)
    | .skip k => skipTo t k (commit t w)
  else
    match m with
    | .space _ => w
    | .skip _ => w.raise t.table (w.st.entry .runaway none none)

end Sys2Proof.Machine
end

