-- ==== Sys2Proof/Machine/ImagerPort.lean ====
section
/-! DEFINITION. The Imager Port and the output arbiter: records (R155, R183), the arbiter's choice (R140), replies and
outcomes (R144, R145, R157, R158), spoils (R143, R162), status lines and the HOLD switch (R151 to R154). -/

namespace Sys2Proof.Machine

/-! ## Records to the imager (R155, R183) -/

/-- An optional glyph as a byte, 00h for none. -/
def glyphByte (g : Option Code) : Byte :=
  match g with
  | none => 0
  | some c => byteOf c.val

/-- A cell of a LINE record; the second glyph stands only under the composite flag. -/
def PlacedCell.bytes (c : PlacedCell) : List Byte :=
  pairOf c.x ++ [glyphByte c.cell.base, bitsByte [c.cell.heavy, c.cell.underscore, c.cell.second.isSome]] ++
  (match c.cell.second with
   | none => []
   | some g => [byteOf g.val])

/-- The break set of a LINE record: bit w for window w. -/
def breakSet (breaks : List Nat) : Byte :=
  bitsByte [breaks.contains 0, breaks.contains 1, breaks.contains 2, breaks.contains 3, breaks.contains 4,
    breaks.contains 5]

def LineRecord.bytes (markBreaks : Bool) (r : LineRecord) : List Byte :=
  withCheck ([0x02] ++ pairOf r.y ++ [if markBreaks then breakSet r.breaks else 0, byteOf r.cells.length] ++
    r.cells.flatMap PlacedCell.bytes)

/-- A guide's length, start x and codes; an absent guide has length 0, x 0 and no codes. -/
def guideBytes : Option PlacedGuide → List Byte
  | none => [0, 0, 0]
  | some g => [byteOf g.text.length] ++ pairOf g.x ++ g.text.map fun c => byteOf c.val

def Page.openRecord (i : StationId) (p : Page) : List Byte :=
  withCheck ([0x01, byteOf i.val] ++ bytes16 p.job ++ bytes16 p.page ++ [byteOf p.lines.length] ++
    pairOf p.width ++ pairOf p.depth)

def Page.guideRecord (p : Page) : List Byte :=
  withCheck ([0x03] ++ pairOf p.guideRow ++ guideBytes p.firstPlaced ++ guideBytes p.lastPlaced)

def Page.closeRecord (p : Page) : List Byte := withCheck [0x04, byteOf p.lines.length]

/-- The PAGE VOID record of an abandoned page (R156). -/
def Page.voidRecord (i : StationId) (p : Page) : List Byte := withCheck ([0x05, byteOf i.val] ++ bytes16 p.page)

/-- The records of a page in their order, GUIDE omitted when both guides are absent (R155). -/
def Page.records (i : StationId) (p : Page) : List (List Byte) :=
  [p.openRecord i] ++ p.lines.map (LineRecord.bytes p.markBreaks) ++
  (if p.firstPlaced.isNone && p.lastPlaced.isNone then [] else [p.guideRecord]) ++ [p.closeRecord]

/-! ## The page in flight -/

/-- The page in flight with its owner: the head of the owner's queue (R140, R150). -/
def State.flightPage (s : State) : Option (StationId × Page) :=
  s.port.flight.bind fun i => (s.station i).queue.head?.map fun p => (i, p)

/-- The head of the station's queue replaced. -/
def Station.setHead (p : Page) (st : Station) : Station :=
  match st.queue with
  | [] => st
  | _ :: rest => { st with queue := p :: rest }

/-- The port with no page in flight, no timer running and nothing more to send, in state `p`. -/
def Port.clearFlight (p : PortState) (port : Port) : Port :=
  { port with state := p, flight := none, replyTimer := false, imagingTimer := none, outgoing := [] }

/-- A reply the port cannot take is discarded and counted (R163). -/
def State.strayReply (s : State) : State :=
  { s with port := { s.port with stray := min Config.maxCount (s.port.stray + 1) } }

/-! ## The arbiter (R140) -/

/-- The station's queue head waits to be sent. -/
def Station.headReady (st : Station) : Bool :=
  match st.queue with
  | [] => false
  | p :: _ => p.state == .waiting || p.state == .spoiled

/-- The first station after the pointer, in cyclic order, whose head waits to be sent (R140). -/
def State.nextServed (s : State) : Option StationId :=
  [s.pointer + 1, s.pointer + 2, s.pointer + 3, s.pointer].find? fun i => (s.station i).headReady

/-- The port lets the arbiter choose: IDLE, READY high, COVER low (R140). -/
def Port.choosing (p : Port) : Bool := p.state == .idle && p.debounced.ready && !p.debounced.cover

/-- A choice of the arbiter is due: the conditions of R140 hold. -/
def State.choiceDue (s : State) : Bool := s.port.choosing && s.nextServed.isSome

/-- The arbiter's choice, when its conditions hold (R140, R142, R155); nothing otherwise. R141 has the choice made at the
first moment the conditions hold: the choice is a command of its own, and every other command finds a due choice made
before it acts (DEDUCED, safe: log entry 11), but for `State.beforeLine`. -/
def State.arbitrate (s : State) : State :=
  if s.port.choosing then
    match s.nextServed with
    | none => s
    | some i =>
      match (s.station i).queue with
      | [] => s
      | p :: _ =>
        { s.setStation i ((s.station i).setHead { p with state := .sending }) with
          pointer := i
          port := { s.port with state := .sending, flight := some i, outgoing := p.records i, returned := false } }
  else s

/-- A change that takes the imager away: READY falls or FAULT rises (R161). -/
def losesImager (l : Line) (level : Bool) : Bool :=
  match l with
  | .ready => !level
  | .fault => level
  | _ => false

/-- What comes before line `l` takes the debounced level `level`: a due choice is made (R141). Where the reply just taken made
it due, a fall of READY or a rise of FAULT falls together with that reply and finds the port IDLE with no page to spoil, so
the choice is not made (R161; DEDUCED, unsafe: log entry 23). -/
def State.beforeLine (l : Line) (level : Bool) (s : State) : State :=
  if s.choiceDue && s.port.returned && losesImager l level && s.port.debounced.get l != level then
    { s with port := { s.port with returned := false } }
  else s.arbitrate

/-- A reply has taken the port to IDLE. If a choice is then due, a change of a line may still fall together with the reply
(R161; log entry 23). -/
def State.markReturn (s : State) : State := { s with port := { s.port with returned := s.choiceDue } }

/-! ## Summaries and outcomes (R24, R144 to R146) -/

/-- The summary of a page at its outcome (R24). -/
def Page.summary (refused : Bool) (p : Page) : Summary where
  job := p.job
  page := p.page
  lines := p.lines.length
  listings := p.listings
  orderBreaks := (p.columns.map ColumnRecord.breaks).sum
  seamBreaks := p.seamBreaks
  firstGuide := p.firstGuide
  lastGuide := p.lastGuide
  spoils := p.spoils
  blank := false
  clipped := p.clipped
  refused := refused
  endJob := p.endJob

/-- The drain test after an outcome (R10, R146). -/
def Station.drainTest (st : Station) : Station :=
  if st.state = .draining ∧ st.holdings = 0 then
    Station.reachReady { st with causes := { st.causes with drained := true } }
  else st

/-- PAGES IMAGED rises and the count match is tested (R19, R20). -/
def Station.countImaged (st : Station) : Station :=
  let n := st.counters.imaged + 1
  { st with
    counters := { st.counters with imaged := n }
    causes := { st.causes with countReached := st.causes.countReached || (st.matchValue != 0 && n == st.matchValue) } }

/-- The slot at the head of the queue is freed (R144 step 2). -/
def Station.freeHead (st : Station) : Station := { st with queue := st.queue.tail }

/-- The IMAGED outcome at the owning station (R144). -/
def Station.imagedOutcome (p : Page) (st : Station) : Station :=
  (st.freeHead.countImaged.addReport (p.summary false)).drainTest

/-- A condition entry for a page at the imager: the slot's page number, the station's carriage line (R122). -/
def Station.pageEntry (st : Station) (k : Condition) (p : Page) : CondEntry := ⟨k, p.page, st.line, none, none⟩

/-- The REFUSED outcome at the owning station (R145). -/
def Station.refusedOutcome (table : Dispositions) (p : Page) (st : Station) : Station :=
  ((st.freeHead.addReport (p.summary true)).raise table (st.pageEntry .imagerRefused p)).drainTest

/-! ## Spoils (R143, R162) -/

/-- The page spoiled: its slot SPOILED at the head, its spoil count risen (R143). -/
def Page.spoil (p : Page) : Page := { p with state := .spoiled, spoils := min Config.maxSpoils (p.spoils + 1) }

/-- The owning station when its page in flight spoils, `timeout` for a timer's expiry (R162 steps 2 to 4). -/
def Station.spoilHead (table : Dispositions) (timeout : Bool) (p : Page) (st : Station) : Station :=
  let st1 := st.setHead p.spoil
  let st2 := if timeout then st1.raise table (st1.pageEntry .imagerTimeout p) else st1
  if p.spoils + 1 = Config.repeatedSpoils then st2.raise table (st2.pageEntry .repeatedSpoil p) else st2

/-- The page in flight, if there is one, spoils, and the port goes to state `dest` (R161, R162). -/
def State.spoilFlight (timeout : Bool) (dest : PortState) (s : State) : State :=
  match s.flightPage with
  | none => { s with port := s.port.clearFlight dest }
  | some (i, p) =>
    { s.setStation i ((s.station i).spoilHead s.library.dispositions timeout p) with
      port := s.port.clearFlight dest }

/-! ## Replies (R157, R158, R163) -/

/-- The imager's TAKEN (R157). -/
def State.replyTaken (s : State) : State :=
  if s.port.state = .awaitingTaken then
    { s with port := { s.port with state := .imaging, replyTimer := false, imagingTimer := some s.port.setup.imaging } }
  else s.strayReply

/-- The imager's REFUSED, whatever its reason (R157, R184). -/
def State.replyRefused (s : State) : State :=
  if s.port.state = .awaitingTaken then
    match s.flightPage with
    | none => s.strayReply
    | some (i, p) =>
      { s.setStation i ((s.station i).refusedOutcome s.library.dispositions p) with
        port := s.port.clearFlight .idle }.markReturn
  else s.strayReply

/-- The page in flight in IMAGING that a reply names (R158). -/
def State.matching (s : State) (station : Byte) (page : Half) : Option (StationId × Page) :=
  if s.port.state = .imaging then
    s.flightPage.filter fun x => byteOf x.1.val == station && x.2.page == page
  else none

/-- The imager's IMAGED (R158). -/
def State.replyImaged (station : Byte) (page : Half) (s : State) : State :=
  match s.matching station page with
  | none => s.strayReply
  | some (i, p) =>
    { s.setStation i ((s.station i).imagedOutcome p) with port := s.port.clearFlight .idle }.markReturn

/-- The imager's SPOILED (R158). -/
def State.replySpoiled (station : Byte) (page : Half) (s : State) : State :=
  match s.matching station page with
  | none => s.strayReply
  | some _ => (s.spoilFlight false .idle).markReturn

/-- A reply whose bytes sum to `sum`: discarded as stray when its check byte fails (R184). -/
def State.checkedReply (sum : Byte) (take : State → State) (s : State) : State :=
  if sum = 0 then take s else s.strayReply

/-- The bytes on the imager link before a quiet of 50 ms (R184): whole replies are taken; an unknown type, or a reply
cut short, is discarded with all after it and counts as one stray (DEDUCED, safe: log entry 14). A choice due before a
reply is made before it (R141). -/
def readImagerBytes : List Byte → State → State
  | [], s => s.arbitrate
  | t :: rest, s =>
    if t = 0x81 then
      match rest with
      | c :: rest => readImagerBytes rest (s.arbitrate.checkedReply (t + c) State.replyTaken)
      | _ => s.arbitrate.strayReply
    else if t = 0x82 then
      match rest with
      | r :: c :: rest => readImagerBytes rest (s.arbitrate.checkedReply (t + r + c) State.replyRefused)
      | _ => s.arbitrate.strayReply
    else if t = 0x83 then
      match rest with
      | i :: p1 :: p0 :: c :: rest =>
        readImagerBytes rest (s.arbitrate.checkedReply (t + i + p1 + p0 + c) (State.replyImaged i (be16 p1 p0)))
      | _ => s.arbitrate.strayReply
    else if t = 0x84 then
      match rest with
      | i :: p1 :: p0 :: c :: rest =>
        readImagerBytes rest (s.arbitrate.checkedReply (t + i + p1 + p0 + c) (State.replySpoiled i (be16 p1 p0)))
      | _ => s.arbitrate.strayReply
    else s.arbitrate.strayReply

/-! ## Status lines and the HOLD switch (R151 to R154) -/

/-- The edge selection names a change to `level` (R152). -/
def Edge.names (e : Edge) (level : Bool) : Bool :=
  match e with
  | .none => false
  | .rise => level
  | .fall => !level
  | .both => true

/-- The port's move at a debounced change of READY (R154, R161). `fault` is the debounced FAULT level. While PAGE VOID is
due, SENDING without a page in flight, the port stays (DEDUCED, unsafe: log entry 6). -/
def State.readyMove (level : Bool) (s : State) : State :=
  match s.port.state, level with
  | .offline, true => { s with port := { s.port with state := if s.port.debounced.fault then .faulted else .idle } }
  | .idle, false => { s with port := { s.port with state := .offline } }
  | .faulted, false => { s with port := { s.port with state := .offline } }
  | .sending, false => if s.port.flight.isSome then s.spoilFlight false .offline else s
  | .awaitingTaken, false => s.spoilFlight false .offline
  | .imaging, false => s.spoilFlight false .offline
  | _, _ => s

/-- The port's move at a debounced change of FAULT (R154, R161). -/
def State.faultMove (level : Bool) (s : State) : State :=
  match s.port.state, level with
  | .idle, true => { s with port := { s.port with state := .faulted } }
  | .faulted, false => { s with port := { s.port with state := .idle } }
  | .sending, true => if s.port.flight.isSome then s.spoilFlight false .faulted else s
  | .awaitingTaken, true => s.spoilFlight false .faulted
  | .imaging, true => s.spoilFlight false .faulted
  | _, _ => s

/-- The debounced HOLD switch turns on or off: PANEL is added to or removed from a station's hold causes (R3, R153). -/
def Station.panel (on : Bool) (st : Station) : Station :=
  if on then st.addHolds { st.holds with panel := true } else st.removeHolds { st.holds with panel := false }

/-- What a debounced change of a line does besides the change itself and its attention cause. -/
def State.lineEffect (l : Line) (level : Bool) (s : State) : State :=
  match l with
  | .ready => s.readyMove level
  | .fault => s.faultMove level
  | .cover => s
  | .mediaLow => s
  | .hold => s.mapStations (Station.panel level)

/-- The attention cause a line's debounced change raises on a selected edge (R152). -/
def DeviceCauses.lineChange (c : DeviceCauses) (l : Line) : DeviceCauses :=
  match l with
  | .hold => { c with panelChange := true }
  | _ => { c with imagerChange := true }

/-- A line's debounced level takes `level` (R151): a change raises its attention cause on a selected edge (R152) and acts
on the port or the stations (R153, R154). No change does nothing. -/
def State.setDebounced (l : Line) (level : Bool) (s : State) : State :=
  if s.port.debounced.get l = level then s
  else
    let s1 := { s with
      port := { s.port with debounced := s.port.debounced.put l level }
      link := if (s.port.setup.edges.get l).names level
        then { s.link with causes := s.link.causes.lineChange l } else s.link }
    s1.lineEffect l level

/-- A line's raw level is `level`. -/
def State.setRaw (l : Line) (level : Bool) (s : State) : State :=
  { s with port := { s.port with raw := s.port.raw.put l level } }

/-- A raw level has held `level` for the whole debounce setting (R151), so the raw level is `level` and the debounced
level takes it (DEDUCED, safe: log entry 9). -/
def State.debouncedEvent (l : Line) (level : Bool) (s : State) : State :=
  if s.port.debounced.get l = level then s else (s.setRaw l level).setDebounced l level

/-- A line whose debounce setting is off takes its raw level at once (R151). -/
def State.takeRaw (s : State) (l : Line) : State :=
  if s.port.setup.debounce.get l = .off then s.setDebounced l (s.port.raw.get l) else s

/-- The state a port goes to when PAGE VOID has been sent: as its lines stand (R156, R165). -/
def Port.afterVoid (p : Port) : PortState :=
  if !p.debounced.ready then .offline else if p.debounced.fault then .faulted else .idle

/-- The port at DEVICE CLEAR (R156, R165): the page in flight is forgotten; in SENDING a PAGE VOID for it is due.
`void` is the PAGE VOID record of the page in flight. No command ends a single record, so how far the records have gone is
open: the record in progress counts as ended, and PAGE VOID alone is still to go out (DESIGN CHOICE, unsafe: log entry 20). -/
def Port.deviceClear (void : List (List Byte)) (p : Port) : Port :=
  match p.state with
  | .sending => if p.flight.isSome then { p with flight := none, outgoing := void } else p
  | .awaitingTaken => p.clearFlight .idle
  | .imaging => p.clearFlight .idle
  | _ => p

end Sys2Proof.Machine
end

