-- ==== Sys2Proof/Machine/Flags.lean ====
section
/-! DEFINITION. What an order is answered: results, reasons, the eight summary flags, and the ending status frame
built from them (R171, R172, R178). -/

namespace Sys2Proof.Machine

/-- The four results (R178). -/
inductive Result where
  | done | retry | refused | frameError
  deriving DecidableEq, Repr

/-- The reasons (R178). -/
inductive Reason where
  | none | unknownOrder | badLength | badField | notReady | stopped | wrongState | openPage | notAtTop | inUse
  | emptyEntry | noParkSlot | slotEmpty | truncated | length | check
  deriving DecidableEq, Repr

def Result.code : Result → Byte
  | .done => 0x00
  | .retry => 0x01
  | .refused => 0x02
  | .frameError => 0x03

def Reason.code : Reason → Byte
  | .none => 0x00
  | .unknownOrder => 0x01
  | .badLength => 0x02
  | .badField => 0x03
  | .notReady => 0x04
  | .stopped => 0x05
  | .wrongState => 0x06
  | .openPage => 0x07
  | .notAtTop => 0x08
  | .inUse => 0x09
  | .emptyEntry => 0x0A
  | .noParkSlot => 0x0B
  | .slotEmpty => 0x0C
  | .truncated => 0x10
  | .length => 0x11
  | .check => 0x12

/-- What the owner of an order answers: result and reason, the four summary flags that report what the order did
(R172), and the reply data. -/
structure Answer where
  result : Result
  reason : Reason
  condition : Bool
  duplicate : Bool
  loadStuck : Bool
  pageClosed : Bool
  reply : List Byte
  deriving DecidableEq, Repr

/-- DONE, no order flag set, no reply data. -/
def Answer.done : Answer := ⟨.done, .none, false, false, false, false, []⟩

def Answer.retry : Answer := { Answer.done with result := .retry }

def Answer.refused (r : Reason) : Answer := { Answer.done with result := .refused, reason := r }

def Answer.frameError (r : Reason) : Answer := { Answer.done with result := .frameError, reason := r }

/-- The answer of an order that was carried out as `Work` (R43, R131). -/
def Answer.ofWork (w : Work) : Answer := { Answer.done with condition := w.noted, pageClosed := w.closed }

/-- The summary flag byte, the four state flags as the part stands (R172). -/
def State.summaryFlags (s : State) (i : StationId) (a : Answer) : Byte :=
  let st := s.station i
  bitsByte [a.pageClosed, a.loadStuck, a.duplicate, a.condition,
    st.overflow, st.state == .stopped, !st.holds.isEmpty, s.attentionPending]

/-- The bytes of the ending status after its lead echo (R171, R178). -/
def State.statusTail (s : State) (lead : Lead) (a : Answer) : List Byte :=
  let body := [a.result.code, a.reason.code, s.summaryFlags lead.station a] ++ pairOf a.reply.length ++ a.reply
  body ++ [- sumBytes (lead.toByte :: body)]

/-- The ending status is built: STATUS OWED, the inter-byte timer off (R168, R171). -/
def State.owe (s : State) (lead : Lead) (a : Answer) : State :=
  { s with link := { s.link with receive := .statusOwed lead.toByte (s.statusTail lead a), interByte := false } }

end Sys2Proof.Machine
end

