-- ==== Sys2Proof/Machine/Loads.lean ====
section
/-! DEFINITION. The Table Library: the five load orders, the in-use test and LIBRARY CLEAR (R105 to R117). The loads
make their checks in the order of R106. -/

namespace Sys2Proof.Machine

/-! ## Entries in use (R114) -/

/-- Some station satisfies `f`. -/
def State.anyStation (s : State) (f : Station → Bool) : Bool :=
  f (s.station 0) || f (s.station 1) || f (s.station 2) || f (s.station 3)

def State.drumInUse (s : State) (e : Fin 8) : Bool := s.anyStation fun st => st.sel.drum == some e && st.busy

def State.tapeInUse (s : State) (e : Fin 8) : Bool :=
  s.anyStation fun st => st.sel.tape == some e && (st.busy || st.line != 1)

def State.layoutInUse (s : State) (e : Fin 8) : Bool := s.anyStation fun st => st.sel.layout == some e && st.busy

def State.collInUse (s : State) (e : Fin 4) : Bool := s.anyStation fun st => st.sel.coll == some e && st.busy

/-! ## LOAD DRUM (R107, R108) -/

/-- The drum table a load leaves: a whole load starts from 256 ABSENT entries. -/
def writeDrum (old : DrumTable) (start : Nat) (els : List DrumEntry) : DrumTable :=
  writeRun (fun t i e => t.setIfInBounds i e) 255 (if start = 0 then Vector.replicate 256 .absent else old) start els

def orderLoadDrum (data : List Byte) (s : State) : State × Answer :=
  match data with
  | be :: bs :: rest =>
    match elementPairs rest with
    | none => (s, .refused .badLength)
    | some pairs =>
      match entryOf 8 be, readAll (fun p => drumEntryOf p.1 p.2) pairs with
      | some e, some els =>
        let start := bs.toNat
        if start ≠ 0 ∧ s.library.drums[e].isNone then (s, .refused .emptyEntry)
        else if s.drumInUse e then (s, .refused .inUse)
        else
          let table := writeDrum (s.library.drums[e].getD (Vector.replicate 256 .absent)) start els
          ({ s with library := { s.library with drums := s.library.drums.set e (some table) } },
           { Answer.done with loadStuck := runSticks 255 start els.length })
      | _, _ => (s, .refused .badField)
  | _ => (s, .refused .badLength)

/-! ## LOAD TAPE (R109, R110) -/

/-- The stop sets a load leaves, line 1 first: a whole load starts from F empty sets. -/
def writeStops (old : List StopSet) (formLength start : Nat) (els : List StopSet) : List StopSet :=
  writeRun (fun t i e => t.set i e) (formLength - 1)
    (if start = 1 then List.replicate formLength 0 else old) (start - 1) els

/-- An amending load's form length, pitch and overflow channel are the entry's (R110). -/
def Tape.sameForm (t : Tape) (f : Nat) (p : Pitch) (ov : Nat) : Bool :=
  t.formLength == f && t.pitch == p && t.overflow == ov

def orderLoadTape (data : List Byte) (s : State) : State × Answer :=
  match data with
  | be :: bf :: bp :: bo :: bs :: rest =>
    match elementPairs rest with
    | none => (s, .refused .badLength)
    | some pairs =>
      match entryOf 8 be, pitchOf bp, readAll (fun p => stopSetOf p.1 p.2) pairs with
      | some e, some pitch, some els =>
        let f := bf.toNat
        let ov := bo.toNat
        let start := bs.toNat
        if f < 2 ∨ 192 < f ∨ ov < 1 ∨ 12 < ov ∨ start = 0 ∨ f < start then (s, .refused .badField)
        else if start ≠ 1 ∧ s.library.tapes[e].isNone then (s, .refused .emptyEntry)
        else if start ≠ 1 ∧ !(s.library.tapes[e].any fun t => t.sameForm f pitch ov) then (s, .refused .badField)
        else if s.tapeInUse e then (s, .refused .inUse)
        else
          let old := match s.library.tapes[e] with
            | none => []
            | some t => t.stops
          ({ s with library := { s.library with
              tapes := s.library.tapes.set e (some ⟨f, pitch, ov, writeStops old f start els⟩) } },
           { Answer.done with loadStuck := runSticks f start els.length })
      | _, _, _ => (s, .refused .badField)
  | _ => (s, .refused .badLength)

/-! ## LOAD LAYOUT (R111) -/

def orderLoadLayout (data : List Byte) (s : State) : State × Answer :=
  match data with
  | be :: w1 :: w0 :: d1 :: d0 :: t1 :: t0 :: r :: y1 :: y0 :: l1 :: l0 :: r1 :: r0 :: c :: f :: rest =>
    if c.toNat < 1 ∨ 6 < c.toNat ∨ rest.length ≠ 7 * c.toNat then (s, .refused .badLength)
    else
      match entryOf 8 be, windowsOf rest with
      | some e, some windows =>
        let layout : Layout :=
          ⟨(be16 w1 w0).toNat, (be16 d1 d0).toNat, (be16 t1 t0).toNat, r.toNat, (be16 y1 y0).toNat,
           (be16 l1 l0).toNat, (be16 r1 r0).toNat, f.getLsbD 0, windows⟩
        if f.extractLsb' 1 7 ≠ 0 ∨ !layout.valid then (s, .refused .badField)
        else if s.layoutInUse e then (s, .refused .inUse)
        else ({ s with library := { s.library with layouts := s.library.layouts.set e (some layout) } }, .done)
      | _, _ => (s, .refused .badField)
  | _ => (s, .refused .badLength)

/-! ## LOAD COLLATION (R112) -/

/-- A collation table from its 251 weights. -/
def collTableOf (weights : List Byte) : CollTable := Vector.ofFn fun i => weights.getD i.val 0

def orderLoadCollation (data : List Byte) (s : State) : State × Answer :=
  match data with
  | be :: weights =>
    if weights.length ≠ 251 then (s, .refused .badLength)
    else
      match entryOf 4 be with
      | none => (s, .refused .badField)
      | some e =>
        if s.collInUse e then (s, .refused .inUse)
        else
          ({ s with library := { s.library with colls := s.library.colls.set e (some (collTableOf weights)) } }, .done)
  | [] => (s, .refused .badLength)

/-! ## LOAD CONDITIONS (R113) -/

/-- A condition table from its sixteen dispositions. -/
def dispositionsOf (ds : List Disposition) : Dispositions := Vector.ofFn fun i => ds.getD i.val .ignore

def orderLoadConditions (data : List Byte) (s : State) : State × Answer :=
  if data.length ≠ 16 then (s, .refused .badLength)
  else
    match readAll dispositionOf data with
    | none => (s, .refused .badField)
    | some ds => ({ s with library := { s.library with dispositions := dispositionsOf ds } }, .done)

/-! ## LIBRARY CLEAR (R117) -/

def orderLibraryClear (params : List Byte) (s : State) : State × Answer :=
  match params with
  | [kind, b] =>
    let lib := s.library
    if kind = 0x00 then
      match entryOf 8 b with
      | none => (s, .refused .badField)
      | some e =>
        if lib.refs.drum[e] ≠ 0 then (s, .refused .inUse)
        else ({ s with library := { lib with drums := lib.drums.set e none } }, .done)
    else if kind = 0x01 then
      match entryOf 8 b with
      | none => (s, .refused .badField)
      | some e =>
        if lib.refs.tape[e] ≠ 0 then (s, .refused .inUse)
        else ({ s with library := { lib with tapes := lib.tapes.set e none } }, .done)
    else if kind = 0x02 then
      match entryOf 8 b with
      | none => (s, .refused .badField)
      | some e =>
        if lib.refs.layout[e] ≠ 0 then (s, .refused .inUse)
        else ({ s with library := { lib with layouts := lib.layouts.set e none } }, .done)
    else if kind = 0x03 then
      match entryOf 4 b with
      | none => (s, .refused .badField)
      | some e =>
        if lib.refs.coll[e] ≠ 0 then (s, .refused .inUse)
        else ({ s with library := { lib with colls := lib.colls.set e none } }, .done)
    else (s, .refused .badField)
  | _ => (s, .refused .badLength)

end Sys2Proof.Machine
end

