-- ==== Sys2Proof/Machine/PrintMove.lean ====
section
/-! DEFINITION. The orders PRINT and MOVE at a station: their checks in the order of R6, and their work (R30 to R33,
R60 to R67). -/

namespace Sys2Proof.Machine

/-- The order needs a page slot (R64): its motion commits, the committed line will be non-empty, and the form has no
open page. `bytes` are the print bytes the commit would include: those of a PRINT with AFTER timing. -/
def Station.needsSlot (t : Tools) (m : Motion) (bytes : List Byte) (st : Station) : Bool :=
  m.commits t.tape && (st.hasStrikes || anyStrike t.drum bytes) && st.openPage.isNone

/-- The print bytes that stand in the line the motion commits: with AFTER timing the order's own (R31, R32). -/
def Control.bytesBefore (c : Control) (bytes : List Byte) : List Byte := if c.before then [] else bytes

/-- The work of a taken PRINT or MOVE (R31, R32): strike then move, or move then strike. A MOVE has no bytes. -/
def lineWork (t : Tools) (c : Control) (bytes : Option (List Byte)) (st : Station) : Work :=
  let w : Work := ⟨st, false, false⟩
  match bytes with
  | none => carry t c.motion w
  | some bs => if c.before then recordStrikes t bs (carry t c.motion w) else carry t c.motion (recordStrikes t bs w)

/-- A taken PRINT or MOVE, carried out whole: its work, the flip of the expected bit, the idle timer (R44, R62, R21). -/
def takeLineOrder (t : Tools) (c : Control) (bytes : Option (List Byte)) (st : Station) : Station × Answer :=
  let w := lineWork t c bytes st
  (Station.restartIdle { w.st with expected := !w.st.expected }, Answer.ofWork w)

/-- A repeated PRINT or MOVE: DUPLICATE LINE is raised and nothing else happens (R61, R131). -/
def repeatedLine (t : Tools) (st : Station) : Station × Answer :=
  (st.raise t.table (st.entry .duplicateLine none none),
   { Answer.done with duplicate := true, condition := st.raiseNotes t.table .duplicateLine })

/-- A PRINT (`bytes` its print bytes) or MOVE (`none`) at a station, after the link's length check: the checks of R6 in
their order, then the work. `free` says the Page Store can open a slot for the station. -/
def Station.lineOrder (t : Tools) (free seq : Bool) (control : Byte) (bytes : Option (List Byte)) (st : Station) :
    Station × Answer :=
  match Control.ofByte control with
  | none => (st, .refused .badField)
  | some c =>
    if st.state = .unloaded then (st, .refused .notReady)
    else if seq ≠ st.expected then repeatedLine t st
    else
      match st.state with
      | .stopped => (st, .refused .stopped)
      | .ready =>
        if st.needsSlot t c.motion (c.bytesBefore (bytes.getD [])) && !free then (st, .retry)
        else takeLineOrder t c bytes st
      | _ => (st, .retry)

/-- An order addressed to station `i` that touches nothing but the station. -/
def State.atStation (s : State) (i : StationId) (f : Station → Station × Answer) : State × Answer :=
  let r := f (s.station i)
  (s.setStation i r.1, r.2)

/-- PRINT: the control byte, then the print bytes (R49). -/
def orderPrint (i : StationId) (seq : Bool) (data : List Byte) (s : State) : State × Answer :=
  match data with
  | [] => (s, .refused .badLength)
  | c :: bytes =>
    s.atStation i (Station.lineOrder (s.library.tools (s.station i).sel) (s.canOpen i) seq c (some bytes))

/-- MOVE: the control byte alone (R32, R180). -/
def orderMove (i : StationId) (seq : Bool) (data : List Byte) (s : State) : State × Answer :=
  match data with
  | [c] =>
    s.atStation i (Station.lineOrder (s.library.tools (s.station i).sel) (s.canOpen i) seq c none)
  | _ => (s, .refused .badLength)

end Sys2Proof.Machine
end

