-- ==== Sys2Proof/Machine/Stations.lean ====
section
/-! DEFINITION. Station Control: SELECT and the STATION sub-functions (R7 to R18). An `order…` takes the data bytes after
the link's decoding and answers with the state the order leaves. A STATION order has four parameter bytes; those its
sub-function does not use are not read (R181). -/

namespace Sys2Proof.Machine

/-! ## SELECT (R7) -/

/-- The selections a SELECT leaves. -/
def Selections.choose (sel : Selections) (d t l : Choice 8) (c : Choice 4) : Selections :=
  ⟨d.apply sel.drum, t.apply sel.tape, l.apply sel.layout, c.apply sel.coll⟩

/-- A field of SELECT names an EMPTY entry (R7 check 4). -/
def namesEmpty {n : Nat} {α : Type} (v : Vector (Option α) n) : Choice n → Bool
  | .keep => false
  | .use none => false
  | .use (some e) => v[e].isNone

/-- The station after a taken SELECT (R7, R47, R102). -/
def Station.select (new : Selections) (st : Station) : Station :=
  let st1 := { st with
    sel := new
    overflow := if new.tape = st.sel.tape then st.overflow else false
    carry := if new.coll = st.sel.coll then st.carry else none }
  if st.state = .unloaded ∧ new.complete then st1.reachReady else st1

/-- SELECT, its checks in the order of R7. -/
def orderSelect (i : StationId) (data : List Byte) (s : State) : State × Answer :=
  match data with
  | [bd, bt, bl, bc] =>
    match Choice.ofByte bd, Choice.ofByte bt, Choice.ofByte bl, Choice.ofCollByte bc with
    | some d, some t, some l, some c =>
      let st := s.station i
      let new := st.sel.choose d t l c
      if st.state = .draining then (s, .refused .wrongState)
      else if st.busy then (s, .refused .openPage)
      else if namesEmpty s.library.drums d || namesEmpty s.library.tapes t || namesEmpty s.library.layouts l ||
          namesEmpty s.library.colls c then (s, .refused .emptyEntry)
      else if new.tape ≠ st.sel.tape ∧ st.line ≠ 1 then (s, .refused .notAtTop)
      else
        ({ s.setStation i (st.select new) with
            library := { s.library with refs := s.library.refs.move st.sel new } }, .done)
    | _, _, _, _ => (s, .refused .badField)
  | _ => (s, .refused .badLength)

/-! ## BEGIN JOB and END JOB (R8, R9) -/

/-- BEGIN JOB at a station (R6, R8). -/
def Station.beginJob (job page : Half) (st : Station) : Station × Answer :=
  if page = 0 then (st, .refused .badField)
  else
    match st.state with
    | .ready =>
      if st.busy then (st, .refused .openPage)
      else ({ st with job := job, page := page, counters := Counters.zero, carry := none }, .done)
    | .held => (st, .retry)
    | _ => (st, .refused .wrongState)

/-- The work of END JOB: the commit, and the close of the open page if there then is one (R9 steps 1 and 2). -/
def endJobWork (t : Tools) (st : Station) : Work :=
  let w := commit t ⟨st, false, false⟩
  match w.st.openPage with
  | none => w
  | some p =>
    let w2 := closePage t true p w
    { w2 with st := w2.st.countPage, closed := true }

/-- The station after END JOB's work (R9 steps 3 to 5). -/
def Station.finishJob (st : Station) : Station :=
  let st1 := { st with line := 1, overflow := false, carry := none, idle := .off }
  if st.state = .stopped then st1
  else if st.holdings ≠ 0 then { st1 with state := .draining }
  else Station.reachReady { st1 with causes := { st1.causes with drained := true } }

/-- END JOB at a station (R6, R9, R66). -/
def Station.endJob (t : Tools) (free : Bool) (st : Station) : Station × Answer :=
  match st.state with
  | .ready =>
    if st.hasStrikes && st.openPage.isNone && !free then (st, .retry)
    else
      let w := endJobWork t st
      (w.st.finishJob, Answer.ofWork w)
  | .held => (st, .retry)
  | _ => (st, .refused .wrongState)

/-! ## HOLD, RELEASE, STOP, RESET (R11 to R14) -/

/-- STATION HOLD (R11). -/
def Station.hold (st : Station) : Station := st.addHolds { st.holds with order := true }

/-- STATION RELEASE (R12, R132). -/
def Station.release (st : Station) : Station :=
  Station.removeHolds { st.holds with order := false, condition := false }
    { st with record := { st.record with first := none } }

/-- STATION STOP (R13). -/
def Station.stop (st : Station) : Station × Answer :=
  match st.state with
  | .unloaded => (st, .refused .wrongState)
  | .stopped => (st, .done)
  | _ => (st.stopWith .operator, .done)

/-- STATION RESET, the debounced HOLD switch being on or off (R14). The queue, the pending causes, the selections,
quota, timer setting and match value are kept. A station without drum, tape and layout is UNLOADED, with PANEL present if the
switch is on (DEDUCED, unsafe: log entry 15). -/
def Station.reset (switchOn : Bool) (st : Station) : Station :=
  let st1 := { st with
    holds := ⟨false, false, switchOn⟩
    stopCode := .none
    line := 1
    overflow := false
    job := 0
    page := 1
    expected := false
    counters := Counters.zero
    carry := none
    idle := .off
    reports := []
    strikes := emptyLine
    record := CondRecord.clear
    openPage := none }
  if st.sel.complete then st1.reachReady else { st1 with state := .unloaded }

/-! ## PARK and RESUME (R15 to R17) -/

/-- The record PARK writes into the slot (R16 step 1). -/
def Station.parkRecord (st : Station) : ParkRecord :=
  ⟨st.job, st.page, st.line, st.sel, st.carry, st.counters, st.matchValue, st.timerSetting⟩

/-- The station PARK leaves (R16 steps 2 and 3). -/
def Station.parked (st : Station) : Station :=
  { st with
    state := .unloaded
    sel := Selections.none
    line := 1
    overflow := false
    job := 0
    page := 1
    expected := false
    counters := Counters.zero
    carry := none
    timerSetting := 0
    idle := .off
    matchValue := 0
    strikes := emptyLine }

/-- The station RESUME leaves (R17), `line` being the line it places the carriage at. -/
def Station.resumed (r : ParkRecord) (line : Nat) (st : Station) : Station :=
  Station.reachReady
    { st with
      sel := r.sel
      line := line
      overflow := false
      job := r.job
      page := r.page
      expected := false
      counters := r.counters
      carry := r.carry
      timerSetting := r.timerSetting
      idle := .off
      matchValue := r.matchValue
      strikes := emptyLine }

/-- STATION PARK (R6, R16). -/
def orderPark (i : StationId) (params : List Byte) (s : State) : State × Answer :=
  match params with
  | [b, _, _, _] =>
    match entryOf 4 b with
    | none => (s, .refused .badField)
    | some k =>
      let st := s.station i
      if st.state ≠ .ready then (s, .refused .wrongState)
      else if st.busy then (s, .refused .openPage)
      else if s.parks[k].isSome then (s, .refused .noParkSlot)
      else ({ s.setStation i st.parked with parks := s.parks.set k (some st.parkRecord) }, .done)
  | _ => (s, .refused .badLength)

/-- STATION RESUME (R6, R17). -/
def orderResume (i : StationId) (params : List Byte) (s : State) : State × Answer :=
  match params with
  | [b, o, _, _] =>
    match entryOf 4 b with
    | none => (s, .refused .badField)
    | some k =>
      let st := s.station i
      if o.extractLsb' 1 7 ≠ 0 then (s, .refused .badField)
      else if st.state ≠ .unloaded ∧ st.state ≠ .ready then (s, .refused .wrongState)
      else if st.busy then (s, .refused .openPage)
      else
        match s.parks[k] with
        | none => (s, .refused .slotEmpty)
        | some r =>
          let line := if o.getLsbD 0 || (s.library.tapeOf r.sel).formLength < r.line then 1 else r.line
          ({ s.setStation i (st.resumed r line) with
              parks := s.parks.set k none
              library := { s.library with refs := s.library.refs.release st.sel } }, .done)
  | _ => (s, .refused .badLength)

/-! ## Settings (R18) -/

/-- SET QUOTA's clamp (R18). -/
def clampQuota (b : Byte) : Nat := min Config.maxQuota (max 1 b.toNat)

/-- SET TIMER (R18): written, then applied at once. -/
def Station.setTimer (b : Byte) (st : Station) : Station := Station.restartIdle { st with timerSetting := b.toNat }

/-! ## The orders with no more than a station to change -/

/-- A STATION order of four parameter bytes carried out at the station alone. -/
def State.stationOrder (s : State) (i : StationId) (params : List Byte)
    (f : Byte → Byte → Byte → Byte → Station → Station × Answer) : State × Answer :=
  match params with
  | [a, b, c, d] => s.atStation i (f a b c d)
  | _ => (s, .refused .badLength)

def orderBeginJob (i : StationId) (params : List Byte) (s : State) : State × Answer :=
  s.stationOrder i params fun a b c d => Station.beginJob (be16 a b) (be16 c d)

def orderEndJob (i : StationId) (params : List Byte) (s : State) : State × Answer :=
  s.stationOrder i params fun _ _ _ _ => Station.endJob (s.library.tools (s.station i).sel) (s.canOpen i)

def orderHold (i : StationId) (params : List Byte) (s : State) : State × Answer :=
  s.stationOrder i params fun _ _ _ _ st => (st.hold, .done)

def orderRelease (i : StationId) (params : List Byte) (s : State) : State × Answer :=
  s.stationOrder i params fun _ _ _ _ st => (st.release, .done)

def orderStop (i : StationId) (params : List Byte) (s : State) : State × Answer :=
  s.stationOrder i params fun _ _ _ _ => Station.stop

def orderReset (i : StationId) (params : List Byte) (s : State) : State × Answer :=
  s.stationOrder i params fun _ _ _ _ st => (st.reset s.port.debounced.hold, .done)

def orderSetQuota (i : StationId) (params : List Byte) (s : State) : State × Answer :=
  s.stationOrder i params fun a _ _ _ st => ({ st with quota := clampQuota a }, .done)

def orderSetTimer (i : StationId) (params : List Byte) (s : State) : State × Answer :=
  s.stationOrder i params fun a _ _ _ st => (st.setTimer a, .done)

def orderSetMatch (i : StationId) (params : List Byte) (s : State) : State × Answer :=
  s.stationOrder i params fun a b c d st => ({ st with matchValue := be32 a b c d }, .done)

end Sys2Proof.Machine
end

