-- ==== Sys2Proof/Machine/Device.lean ====
section
/-! DEFINITION. SENSE, REPORT, ECHO and the DEVICE sub-functions (R25, R27, R164, R173 to R176, R182). -/

namespace Sys2Proof.Machine

/-! ## Codes of the SENSE reply (R182) -/

def StationState.code : StationState → Byte
  | .unloaded => 0x00
  | .ready => 0x01
  | .held => 0x02
  | .stopped => 0x03
  | .draining => 0x04

def StopCode.code : StopCode → Byte
  | .none => 0x00
  | .operator => 0x01
  | .conditionStop => 0x02
  | .secondCondition => 0x03

def IdleTimer.code : IdleTimer → Byte
  | .off => 0x00
  | .running => 0x01
  | .expired => 0x02

def PortState.code : PortState → Byte
  | .offline => 0x00
  | .idle => 0x01
  | .sending => 0x02
  | .awaitingTaken => 0x03
  | .imaging => 0x04
  | .faulted => 0x05

/-- A selection, FEh for none. -/
def selectionByte {n : Nat} (o : Option (Fin n)) : Byte :=
  match o with
  | none => 0xFE
  | some e => byteOf e.val

/-- A condition entry's six bytes (R182). -/
def entryBytes : Option CondEntry → List Byte
  | none => [0xFF, 0, 0, 0, 0, 0]
  | some e =>
    [byteOf e.kind.number.val] ++ bytes16 e.page ++
    [byteOf e.line, byteOf (e.position.getD 0), match e.column with
      | none => 0xFF
      | some c => byteOf c]

def StationCauses.bits (c : StationCauses) : Byte :=
  bitsByte [c.conditionNoted, c.stopped, c.countReached, c.drained, c.reportAdded]

def KindSet.bits (k : KindSet) : Byte :=
  bitsByte [k.conditionNoted, k.stopped, k.countReached, k.drained, k.reportAdded, k.imagerChange, k.panelChange]

/-- The number of the station's closed slots in a state. -/
def Station.slotsIn (st : Station) (x : SlotState) : Nat := st.queue.countP fun p => p.state == x

/-- The line count of the open page (R78). The manual gives the count only with a page open; without one the byte is 0
(DESIGN CHOICE, unsafe: log entry 21). -/
def Station.openLines (st : Station) : Nat :=
  match st.openPage with
  | none => 0
  | some p => p.lines.length

/-- The station part, counts and settings of a SENSE reply: bytes 0 to 36. -/
def Station.senseContext (st : Station) : List Byte :=
  [st.state.code, bitsByte [st.holds.order, st.holds.condition, st.holds.panel], st.stopCode.code,
    selectionByte st.sel.drum, selectionByte st.sel.tape, selectionByte st.sel.layout, selectionByte st.sel.coll,
    byteOf st.line,
    bitsByte [st.overflow, st.expected, st.carry.isSome, st.hasStrikes, st.openPage.isSome],
    byteOf st.openLines] ++ bytes16 st.page ++ bytes16 st.job ++
  bytes32 st.counters.lines ++ bytes32 st.counters.listings ++ bytes32 st.counters.closed ++
  bytes32 st.counters.imaged ++ [byteOf st.quota, byteOf st.timerSetting, st.idle.code] ++ bytes32 st.matchValue

/-- The condition record and slots of a SENSE reply: bytes 37 to 85. -/
def Station.senseRecord (st : Station) : List Byte :=
  entryBytes st.record.first ++ entryBytes st.record.last ++ st.record.counts.toList.flatMap pairOf ++
  [byteOf (if st.openPage.isSome then 1 else 0), byteOf (st.slotsIn .waiting), byteOf (st.slotsIn .sending),
    byteOf (st.slotsIn .awaiting), byteOf (st.slotsIn .spoiled)]

/-- The device and attention parts of a SENSE reply: bytes 86 to 97. -/
def State.senseDevice (s : State) : List Byte :=
  let l := s.port.debounced
  [bitsByte [s.parks[0].isSome, s.parks[1].isSome, s.parks[2].isSome, s.parks[3].isSome], s.port.state.code] ++
  pairOf s.port.stray ++
  [bitsByte [l.ready, l.mediaLow, l.cover, l.fault, l.hold], s.link.enable.bits, byteOf s.link.activeHigh.toNat,
    (s.station 0).causes.bits, (s.station 1).causes.bits, (s.station 2).causes.bits, (s.station 3).causes.bits,
    bitsByte [false, false, false, false, false, s.link.causes.imagerChange, s.link.causes.panelChange]]

/-- The reply of SENSE to station `i`, 98 bytes (R173, R182). -/
def State.senseReply (s : State) (i : StationId) : List Byte :=
  (s.station i).senseContext ++ (s.station i).senseRecord ++ s.senseDevice

/-- The station's part of SENSE's clearing: its named causes, and its condition counts under bit 7 (R133, R173). -/
def Station.clearBy (mask : Byte) (st : Station) : Station :=
  { st with
    causes := ⟨st.causes.conditionNoted && !mask.getLsbD 0, st.causes.stopped && !mask.getLsbD 1,
      st.causes.countReached && !mask.getLsbD 2, st.causes.drained && !mask.getLsbD 3,
      st.causes.reportAdded && !mask.getLsbD 4⟩
    record := if mask.getLsbD 7 then { st.record with counts := Vector.replicate 16 0 } else st.record }

/-- The device-wide part of SENSE's clearing (R173). -/
def DeviceCauses.clearBy (mask : Byte) (c : DeviceCauses) : DeviceCauses :=
  ⟨c.imagerChange && !mask.getLsbD 5, c.panelChange && !mask.getLsbD 6⟩

/-- SENSE: the reply is built, then the clear mask is applied (R173). -/
def orderSense (i : StationId) (data : List Byte) (s : State) : State × Answer :=
  match data with
  | [mask] =>
    ({ s.setStation i ((s.station i).clearBy mask) with
        link := { s.link with causes := s.link.causes.clearBy mask } },
     { Answer.done with reply := s.senseReply i })
  | _ => (s, .refused .badLength)

/-! ## REPORT (R25, R182) -/

/-- A guide's length and 24 code bytes, unused ones 0. -/
def guideField (g : Option Text) : List Byte :=
  let codes := (g.getD []).map fun c => byteOf c.val
  byteOf codes.length :: (codes ++ List.replicate 24 0).take 24

/-- A page summary's 61 bytes. -/
def Summary.bytes (x : Summary) : List Byte :=
  bytes16 x.job ++ bytes16 x.page ++ [byteOf x.lines, byteOf x.listings] ++ pairOf x.orderBreaks ++
  [byteOf x.seamBreaks, byteOf x.spoils, bitsByte [x.blank, x.clipped, x.refused, x.endJob]] ++
  guideField x.firstGuide ++ guideField x.lastGuide

/-- REPORT at a station: the oldest summaries, as many as the count or the list has, are returned and removed (R25). -/
def Station.report (b : Byte) (st : Station) : Station × Answer :=
  if 1 ≤ b.toNat ∧ b.toNat ≤ 8 then
    ({ st with reports := st.reports.drop b.toNat },
     { Answer.done with reply := (st.reports.take b.toNat).flatMap Summary.bytes })
  else (st, .refused .badField)

def orderReport (i : StationId) (data : List Byte) (s : State) : State × Answer :=
  match data with
  | [b] => s.atStation i (Station.report b)
  | _ => (s, .refused .badLength)

/-- ECHO (R174). -/
def orderEcho (data : List Byte) (s : State) : State × Answer := (s, { Answer.done with reply := data })

/-! ## DEVICE (R174) -/

/-- ATTENTION SETUP (R176). -/
def orderAttentionSetup (params : List Byte) (s : State) : State × Answer :=
  match params with
  | [e, p] =>
    match enableOf e with
    | none => (s, .refused .badField)
    | some k =>
      if p = 0x00 ∨ p = 0x01 then
        ({ s with link := { s.link with enable := k, activeHigh := p == 0x01 } }, .done)
      else (s, .refused .badField)
  | _ => (s, .refused .badLength)

/-- The eleven settings of an IMAGER SETUP, or `none` for BAD FIELD (R164, R180). -/
def setupOf : List Byte → Option ImagerSetup
  | [d0, d1, d2, d3, d4, e0, e1, e2, e3, e4, t1, t0] =>
    (perLineOf debounceOf d0 d1 d2 d3 d4).bind fun d =>
      (perLineOf edgeOf e0 e1 e2 e3 e4).bind fun e =>
        let n := (be16 t1 t0).toNat
        if 1 ≤ n ∧ n ≤ 600 then some ⟨d, e, n⟩ else none
  | _ => none

/-- The new settings stand, and every line whose debounce is now off takes its raw level at once (R151, R164), in the
order of the fields and under the new edge selections (DEDUCED, unsafe: log entry 10). -/
def State.applySetup (x : ImagerSetup) (s : State) : State :=
  [Line.ready, Line.mediaLow, Line.cover, Line.fault, Line.hold].foldl State.takeRaw
    { s with port := { s.port with setup := x } }

/-- IMAGER SETUP (R164). -/
def orderImagerSetup (params : List Byte) (s : State) : State × Answer :=
  if params.length ≠ 12 then (s, .refused .badLength)
  else
    match setupOf params with
    | none => (s, .refused .badField)
    | some x => (s.applySetup x, .done)

/-- DEVICE CLEAR's whole effect (R27, R116, R148, R165): every station reset and its queue freed, the park slots emptied
and their references released, the pointer 3, the page in flight dealt with. -/
def State.deviceClear (s : State) : State :=
  let cleared := s.mapStations fun st => { st.reset s.port.debounced.hold with queue := [] }
  { cleared with
    parks := Vector.replicate 4 none
    library := { s.library with
      refs := ((((s.library.refs.releasePark s.parks[0]).releasePark s.parks[1]).releasePark s.parks[2]).releasePark
        s.parks[3]) }
    pointer := 3
    port := s.port.deviceClear
      (match s.flightPage with
       | none => []
       | some (i, p) => [p.voidRecord i]) }

/-- DEVICE CLEAR (R174). -/
def orderDeviceClear (params : List Byte) (s : State) : State × Answer :=
  match params with
  | [] => (s.deviceClear, .done)
  | _ => (s, .refused .badLength)

end Sys2Proof.Machine
end

