-- ==== Sys2Proof/Machine/PrintLink.lean ====
section
/-! DEFINITION. The Link Interface: bytes taken, frames checked and decoded, orders routed and answered, the inter-byte
timer, status reads, link reset (R167 to R171, R177). -/

namespace Sys2Proof.Machine

/-- A STATION order, by its sub-function (R180); other than five data bytes is BAD LENGTH, an unknown sub-function BAD
FIELD (R181). -/
def orderStation (i : StationId) (data : List Byte) (s : State) : State × Answer :=
  if data.length ≠ 5 then (s, .refused .badLength)
  else
    match data with
    | [] => (s, .refused .badLength)
    | f :: params =>
      if f = 0x01 then orderBeginJob i params s
      else if f = 0x02 then orderEndJob i params s
      else if f = 0x03 then orderHold i params s
      else if f = 0x04 then orderRelease i params s
      else if f = 0x05 then orderStop i params s
      else if f = 0x06 then orderReset i params s
      else if f = 0x07 then orderPark i params s
      else if f = 0x08 then orderResume i params s
      else if f = 0x09 then orderSetQuota i params s
      else if f = 0x0A then orderSetTimer i params s
      else if f = 0x0B then orderSetMatch i params s
      else (s, .refused .badField)

/-- A DEVICE order, by its sub-function; each judges its own length (R179, R181). -/
def orderDevice (data : List Byte) (s : State) : State × Answer :=
  match data with
  | [] => (s, .refused .badLength)
  | f :: params =>
    if f = 0x01 then orderAttentionSetup params s
    else if f = 0x02 then orderImagerSetup params s
    else if f = 0x03 then orderDeviceClear params s
    else if f = 0x04 then orderLibraryClear params s
    else (s, .refused .badField)

/-- A frame whose check byte passed is decoded and carried out (R170). -/
def carryOut (l : Lead) (data : List Byte) (s : State) : State × Answer :=
  if l.code = 0x01 then orderPrint l.station l.seq data s
  else if l.code = 0x02 then orderMove l.station l.seq data s
  else if l.code = 0x03 then orderSelect l.station data s
  else if l.code = 0x04 then orderLoadDrum data s
  else if l.code = 0x05 then orderLoadTape data s
  else if l.code = 0x06 then orderLoadLayout data s
  else if l.code = 0x07 then orderLoadCollation data s
  else if l.code = 0x08 then orderLoadConditions data s
  else if l.code = 0x09 then orderStation l.station data s
  else if l.code = 0x0A then orderSense l.station data s
  else if l.code = 0x0B then orderReport l.station data s
  else if l.code = 0x0C then orderDevice data s
  else if l.code = 0x0D then orderEcho data s
  else (s, .refused .unknownOrder)

/-- A complete frame whose bytes sum to `sum` is answered: FRAME ERROR, CHECK when the sum is not 0, otherwise as its
order is (R169, R170, R171). -/
def State.answerFrame (s : State) (l : Lead) (data : List Byte) (sum : Byte) : State :=
  if sum = 0 then
    let r := carryOut l data s
    r.1.owe l r.2
  else s.owe l (.frameError .check)

/-- The receive state and the inter-byte timer. -/
def State.setReceive (s : State) (r : Receive) (timer : Bool) : State :=
  { s with link := { s.link with receive := r, interByte := timer } }

/-- A byte taken after the lead byte: `rest` is what has been taken after the lead, this byte last (R168). -/
def State.frameByte (s : State) (lead : Byte) (rest : List Byte) : State :=
  match rest with
  | hi :: lo :: more =>
    let n := (be16 hi lo).toNat
    if Config.maxData < n then s.setReceive (.discarding lead) true
    else if more.length = n + 1 then
      s.answerFrame (Lead.ofByte lead) (more.take n) (sumBytes (lead :: rest))
    else s.setReceive (.receiving lead rest) true
  | _ => s.setReceive (.receiving lead rest) true

/-- A byte offered on the link: taken in AWAIT LEAD, RECEIVING and DISCARDING, not acknowledged in STATUS OWED and LINK
HELD (R167). The byte that completes a frame has the frame answered (DEDUCED, safe: log entry 8). -/
def State.takeByte (s : State) (b : Byte) : State :=
  match s.link.receive with
  | .awaitLead => s.setReceive (.receiving b []) true
  | .receiving lead rest => s.frameByte lead (rest ++ [b])
  | .discarding lead => s.setReceive (.discarding lead) true
  | .statusOwed _ _ => s
  | .linkHeld => s

/-- An order frame offered whole. In AWAIT LEAD it is taken and answered. Where the link is in another receive state,
or the data is too long for one frame, the frame's bytes are offered one by one (DEDUCED, safe: log entry 7). -/
def State.receiveOrder (s : State) (h : Head) (code : BitVec 5) (data : List Byte) : State :=
  let l : Lead := ⟨h.station, h.seq, code⟩
  match s.link.receive with
  | .awaitLead =>
    if data.length ≤ Config.maxData then s.answerFrame l data h.sum
    else (frameBytes l data h.sum).foldl State.takeByte s
  | _ => (frameBytes l data h.sum).foldl State.takeByte s

/-- The inter-byte timer expires (R168): a frame cut short is TRUNCATED, a discarded one LENGTH. -/
def State.interByteExpiry (s : State) : State :=
  if s.link.interByte then
    match s.link.receive with
    | .receiving lead _ => s.owe (Lead.ofByte lead) (.frameError .truncated)
    | .discarding lead => s.owe (Lead.ofByte lead) (.frameError .length)
    | _ => s
  else s

/-- The computer reads a byte (R167, R171): given in STATUS OWED, without effect elsewhere. -/
def State.readStatus (s : State) : State :=
  match s.link.receive with
  | .statusOwed b [] => { s with link := { s.link with lastRead := some b, receive := .awaitLead } }
  | .statusOwed b (c :: rest) => { s with link := { s.link with lastRead := some b, receive := .statusOwed c rest } }
  | _ => s

/-- LINK RESET (R177): the frame or the owed status is dropped, the timer stopped, every expected bit 0. -/
def State.linkReset (s : State) : State :=
  (s.mapStations fun st => { st with expected := false }).setReceive .linkHeld false

/-- RESET is released (R177). -/
def State.linkRelease (s : State) : State :=
  match s.link.receive with
  | .linkHeld => s.setReceive .awaitLead false
  | _ => s

end Sys2Proof.Machine
end

