-- ==== Sys2Proof/Machine/EventCommands.lean ====
section
/-! DEFINITION. The meanings of the rows that are no orders: resets, the link's bytes, reads and timer, the idle timers, the
status lines and the HOLD switch, the arbiter, the imager's replies and the port's timers. An event whose premise does
not hold in the state (a timer that is off, a line already at its level, a record not being sent) is no event: it
changes nothing (DESIGN CHOICE, safe: log entry 5). -/

namespace Sys2Proof.Machine

/-- POWER_ON (R26, R118, R150, R167, R175): every block takes its power-on values. The raw levels are those of the pins and
stay (R151). -/
def execPowerOn (s : State) : Host.Outcome State Fault Refusal :=
  .next { State.reset with port := Port.powerOn s.port.raw, pending := s.pending }

/-- LINK_RESET (R177). -/
def execLinkReset (s : State) : Host.Outcome State Fault Refusal := .next s.arbitrate.linkReset

/-- LINK_RESET_RELEASE (R177). -/
def execLinkResetRelease (s : State) : Host.Outcome State Fault Refusal := .next s.arbitrate.linkRelease

/-- ENDING_STATUS_READ (R171). -/
def execEndingStatusRead (s : State) : Host.Outcome State Fault Refusal := .next s.arbitrate.readStatus

/-- INTER_BYTE_TIMER_EXPIRY (R168). -/
def execInterByteTimerExpiry (s : State) : Host.Outcome State Fault Refusal := .next s.arbitrate.interByteExpiry

/-- BYTE_TAKEN (R167, R168). A byte that completes a frame has the frame answered, as the order's own row says. -/
def execByteTaken (b : Byte) (s : State) : Host.Outcome State Fault Refusal := .next (s.arbitrate.takeByte b)

/-- The idle timer's expiry at a station (R22): expired, then STALE PAGE is raised. -/
def Station.idleExpiry (table : Dispositions) (st : Station) : Station :=
  if st.idle = .running then
    Station.raise table (st.entry .stalePage none none) { st with idle := .expired }
  else st

/-- The idle timer's expiry at station `i`. -/
def State.idleExpiry (i : StationId) (s : State) : State :=
  s.setStation i ((s.station i).idleExpiry s.library.dispositions)

/-- IDLE_TIMER_EXPIRY (R22). -/
def execIdleTimerExpiry (i : StationId) (s : State) : Host.Outcome State Fault Refusal :=
  .next (s.arbitrate.idleExpiry i)

/-- The raw level of line `l` changes: with the debounce setting off the debounced level changes at once (R151). -/
def State.rawChange (l : Line) (level : Bool) (s : State) : State :=
  (((if s.port.setup.debounce.get l = .off then s.beforeLine l level else s.arbitrate).setRaw l level)).takeRaw l

/-- RAW_LEVEL_CHANGE (R151): a measurement starts or ends; with the setting off the debounced level changes at once. -/
def execRawLevelChange (l : Line) (level : Bool) (s : State) : Host.Outcome State Fault Refusal :=
  .next (s.rawChange l level)

/-- DEBOUNCED_READY_FALL (R154, R161). -/
def execDebouncedReadyFall (s : State) : Host.Outcome State Fault Refusal :=
  .next ((s.beforeLine .ready false).debouncedEvent .ready false)

/-- DEBOUNCED_READY_RISE (R154). -/
def execDebouncedReadyRise (s : State) : Host.Outcome State Fault Refusal := .next (s.arbitrate.debouncedEvent .ready true)

/-- DEBOUNCED_FAULT_RISE (R154, R161). -/
def execDebouncedFaultRise (s : State) : Host.Outcome State Fault Refusal :=
  .next ((s.beforeLine .fault true).debouncedEvent .fault true)

/-- DEBOUNCED_FAULT_FALL (R154). -/
def execDebouncedFaultFall (s : State) : Host.Outcome State Fault Refusal := .next (s.arbitrate.debouncedEvent .fault false)

/-- DEBOUNCED_COVER_CHANGE (R154). -/
def execDebouncedCoverChange (level : Bool) (s : State) : Host.Outcome State Fault Refusal :=
  .next (s.arbitrate.debouncedEvent .cover level)

/-- DEBOUNCED_MEDIA_LOW_CHANGE (R154). -/
def execDebouncedMediaLowChange (level : Bool) (s : State) : Host.Outcome State Fault Refusal :=
  .next (s.arbitrate.debouncedEvent .mediaLow level)

/-- HOLD_SWITCH_ON (R153). -/
def execHoldSwitchOn (s : State) : Host.Outcome State Fault Refusal := .next (s.arbitrate.debouncedEvent .hold true)

/-- HOLD_SWITCH_OFF (R153). -/
def execHoldSwitchOff (s : State) : Host.Outcome State Fault Refusal := .next (s.arbitrate.debouncedEvent .hold false)

/-- ARBITER_CHOICE (R140). -/
def execArbiterChoice (s : State) : Host.Outcome State Fault Refusal := .next s.arbitrate

/-- The last record of the page in flight has been sent (R142, R156). -/
def State.pageCloseSent (s : State) : State :=
  if s.port.state = .sending then
    match s.flightPage with
    | none => s
    | some (i, p) =>
      { s.setStation i ((s.station i).setHead { p with state := .awaiting }) with
        port := { s.port with state := .awaitingTaken, replyTimer := true, outgoing := [] } }
  else s

/-- PAGE_CLOSE_SENT (R156). -/
def execPageCloseSent (s : State) : Host.Outcome State Fault Refusal := .next s.arbitrate.pageCloseSent

/-- PAGE VOID has been sent (R156, R165): the port leaves SENDING as its lines stand. -/
def State.pageVoidSent (s : State) : State :=
  if s.port.state = .sending ∧ s.port.flight = none then
    { s with port := { s.port with state := s.port.afterVoid, outgoing := [] } }
  else s

/-- PAGE_VOID_SENT (R156, R165). -/
def execPageVoidSent (s : State) : Host.Outcome State Fault Refusal := .next s.arbitrate.pageVoidSent

/-- TAKEN (R157, R184). -/
def execTaken (sum : Byte) (s : State) : Host.Outcome State Fault Refusal := .next (s.arbitrate.checkedReply sum State.replyTaken)

/-- REFUSED (R145, R157, R184); the reason byte is not kept. -/
def execRefused (_reason sum : Byte) (s : State) : Host.Outcome State Fault Refusal :=
  .next (s.arbitrate.checkedReply sum State.replyRefused)

/-- IMAGED (R144, R158, R184). -/
def execImaged (station : Byte) (page : Half) (sum : Byte) (s : State) : Host.Outcome State Fault Refusal :=
  .next (s.arbitrate.checkedReply sum (State.replyImaged station page))

/-- SPOILED (R158, R162, R184). -/
def execSpoiled (station : Byte) (page : Half) (sum : Byte) (s : State) : Host.Outcome State Fault Refusal :=
  .next (s.arbitrate.checkedReply sum (State.replySpoiled station page))

/-- A timer of the port expires, if `running` (R160): a timer that is off does not expire. -/
def State.portTimeout (running : Bool) (s : State) : State := if running then s.spoilFlight true .offline else s

/-- REPLY_TIMER_EXPIRY (R160). -/
def execReplyTimerExpiry (s : State) : Host.Outcome State Fault Refusal :=
  .next (s.arbitrate.portTimeout s.arbitrate.port.replyTimer)

/-- IMAGING_TIMER_EXPIRY (R160). -/
def execImagingTimerExpiry (s : State) : Host.Outcome State Fault Refusal :=
  .next (s.arbitrate.portTimeout s.arbitrate.port.imagingTimer.isSome)

/-- IMAGER_LINK_QUIET_TEST (R184). -/
def execImagerLinkQuietTest (bytes : List Byte) (s : State) : Host.Outcome State Fault Refusal :=
  .next (readImagerBytes bytes s)

end Sys2Proof.Machine
end

