-- ==== Sys2Proof/Machine/OrderCommands.lean ====
section
/-! DEFINITION. The meanings of the order rows: each offers its order frame to the print link, which checks it, decodes it
and has its owner carry it out (`State.receiveOrder`, `carryOut`), after the arbiter's choice if one is due (R141). For the
STATION and DEVICE rows the sub-function byte stands before the parameters. -/

namespace Sys2Proof.Machine

/-- PRINT (R31): the order frame with code 01h. -/
def execPrint (h : Head) (data : List Byte) (s : State) : Host.Outcome State Fault Refusal :=
  .next (s.arbitrate.receiveOrder h 0x01 data)

/-- MOVE (R32): the order frame with code 02h. -/
def execMove (h : Head) (data : List Byte) (s : State) : Host.Outcome State Fault Refusal :=
  .next (s.arbitrate.receiveOrder h 0x02 data)

/-- SELECT (R7): the order frame with code 03h. -/
def execSelect (h : Head) (data : List Byte) (s : State) : Host.Outcome State Fault Refusal :=
  .next (s.arbitrate.receiveOrder h 0x03 data)

/-- LOAD DRUM (R107): the order frame with code 04h. -/
def execLoadDrum (h : Head) (data : List Byte) (s : State) : Host.Outcome State Fault Refusal :=
  .next (s.arbitrate.receiveOrder h 0x04 data)

/-- LOAD TAPE (R109): the order frame with code 05h. -/
def execLoadTape (h : Head) (data : List Byte) (s : State) : Host.Outcome State Fault Refusal :=
  .next (s.arbitrate.receiveOrder h 0x05 data)

/-- LOAD LAYOUT (R111): the order frame with code 06h. -/
def execLoadLayout (h : Head) (data : List Byte) (s : State) : Host.Outcome State Fault Refusal :=
  .next (s.arbitrate.receiveOrder h 0x06 data)

/-- LOAD COLLATION (R112): the order frame with code 07h. -/
def execLoadCollation (h : Head) (data : List Byte) (s : State) : Host.Outcome State Fault Refusal :=
  .next (s.arbitrate.receiveOrder h 0x07 data)

/-- LOAD CONDITIONS (R113): the order frame with code 08h. -/
def execLoadConditions (h : Head) (data : List Byte) (s : State) : Host.Outcome State Fault Refusal :=
  .next (s.arbitrate.receiveOrder h 0x08 data)

/-- STATION BEGIN JOB (R8): code 09h, sub-function 01h. -/
def execBeginJob (h : Head) (params : List Byte) (s : State) : Host.Outcome State Fault Refusal :=
  .next (s.arbitrate.receiveOrder h 0x09 (0x01 :: params))

/-- STATION END JOB (R9): code 09h, sub-function 02h. -/
def execEndJob (h : Head) (params : List Byte) (s : State) : Host.Outcome State Fault Refusal :=
  .next (s.arbitrate.receiveOrder h 0x09 (0x02 :: params))

/-- STATION HOLD (R11): code 09h, sub-function 03h. -/
def execStationHold (h : Head) (params : List Byte) (s : State) : Host.Outcome State Fault Refusal :=
  .next (s.arbitrate.receiveOrder h 0x09 (0x03 :: params))

/-- STATION RELEASE (R12): code 09h, sub-function 04h. -/
def execStationRelease (h : Head) (params : List Byte) (s : State) : Host.Outcome State Fault Refusal :=
  .next (s.arbitrate.receiveOrder h 0x09 (0x04 :: params))

/-- STATION STOP (R13): code 09h, sub-function 05h. -/
def execStationStop (h : Head) (params : List Byte) (s : State) : Host.Outcome State Fault Refusal :=
  .next (s.arbitrate.receiveOrder h 0x09 (0x05 :: params))

/-- STATION RESET (R14): code 09h, sub-function 06h. -/
def execStationReset (h : Head) (params : List Byte) (s : State) : Host.Outcome State Fault Refusal :=
  .next (s.arbitrate.receiveOrder h 0x09 (0x06 :: params))

/-- STATION PARK (R16): code 09h, sub-function 07h. -/
def execStationPark (h : Head) (params : List Byte) (s : State) : Host.Outcome State Fault Refusal :=
  .next (s.arbitrate.receiveOrder h 0x09 (0x07 :: params))

/-- STATION RESUME (R17): code 09h, sub-function 08h. -/
def execStationResume (h : Head) (params : List Byte) (s : State) : Host.Outcome State Fault Refusal :=
  .next (s.arbitrate.receiveOrder h 0x09 (0x08 :: params))

/-- STATION SET QUOTA (R18): code 09h, sub-function 09h. -/
def execSetQuota (h : Head) (params : List Byte) (s : State) : Host.Outcome State Fault Refusal :=
  .next (s.arbitrate.receiveOrder h 0x09 (0x09 :: params))

/-- STATION SET TIMER (R18): code 09h, sub-function 0Ah. -/
def execSetTimer (h : Head) (params : List Byte) (s : State) : Host.Outcome State Fault Refusal :=
  .next (s.arbitrate.receiveOrder h 0x09 (0x0A :: params))

/-- STATION SET MATCH (R18): code 09h, sub-function 0Bh. -/
def execSetMatch (h : Head) (params : List Byte) (s : State) : Host.Outcome State Fault Refusal :=
  .next (s.arbitrate.receiveOrder h 0x09 (0x0B :: params))

/-- SENSE (R173): the order frame with code 0Ah. -/
def execSense (h : Head) (data : List Byte) (s : State) : Host.Outcome State Fault Refusal :=
  .next (s.arbitrate.receiveOrder h 0x0A data)

/-- REPORT (R25): the order frame with code 0Bh. -/
def execReport (h : Head) (data : List Byte) (s : State) : Host.Outcome State Fault Refusal :=
  .next (s.arbitrate.receiveOrder h 0x0B data)

/-- ECHO (R174): the order frame with code 0Dh. -/
def execEcho (h : Head) (data : List Byte) (s : State) : Host.Outcome State Fault Refusal :=
  .next (s.arbitrate.receiveOrder h 0x0D data)

/-- DEVICE ATTENTION SETUP (R176): code 0Ch, sub-function 01h. -/
def execAttentionSetup (h : Head) (params : List Byte) (s : State) : Host.Outcome State Fault Refusal :=
  .next (s.arbitrate.receiveOrder h 0x0C (0x01 :: params))

/-- DEVICE IMAGER SETUP (R164): code 0Ch, sub-function 02h. -/
def execImagerSetup (h : Head) (params : List Byte) (s : State) : Host.Outcome State Fault Refusal :=
  .next (s.arbitrate.receiveOrder h 0x0C (0x02 :: params))

/-- DEVICE CLEAR (R27): code 0Ch, sub-function 03h. -/
def execDeviceClear (h : Head) (params : List Byte) (s : State) : Host.Outcome State Fault Refusal :=
  .next (s.arbitrate.receiveOrder h 0x0C (0x03 :: params))

/-- DEVICE LIBRARY CLEAR (R117): code 0Ch, sub-function 04h. -/
def execLibraryClear (h : Head) (params : List Byte) (s : State) : Host.Outcome State Fault Refusal :=
  .next (s.arbitrate.receiveOrder h 0x0C (0x04 :: params))

end Sys2Proof.Machine
end

