-- ==== Sys2Proof/Machine/Dispatch.lean ====
section
/-! DEFINITION. The meaning of each command: one arm per row of spec/opcode_table.json. -/

namespace Sys2Proof.Machine

def exec (i : Instr) (s : State) : Host.Outcome State Fault Refusal :=
  match i with
  | .powerOn => Sys2Proof.Machine.execPowerOn s
  | .linkReset => Sys2Proof.Machine.execLinkReset s
  | .linkResetRelease => Sys2Proof.Machine.execLinkResetRelease s
  | .endingStatusRead => Sys2Proof.Machine.execEndingStatusRead s
  | .interByteTimerExpiry => Sys2Proof.Machine.execInterByteTimerExpiry s
  | .print h data => Sys2Proof.Machine.execPrint h data s
  | .move h data => Sys2Proof.Machine.execMove h data s
  | .select h data => Sys2Proof.Machine.execSelect h data s
  | .loadDrum h data => Sys2Proof.Machine.execLoadDrum h data s
  | .loadTape h data => Sys2Proof.Machine.execLoadTape h data s
  | .loadLayout h data => Sys2Proof.Machine.execLoadLayout h data s
  | .loadCollation h data => Sys2Proof.Machine.execLoadCollation h data s
  | .loadConditions h data => Sys2Proof.Machine.execLoadConditions h data s
  | .beginJob h params => Sys2Proof.Machine.execBeginJob h params s
  | .endJob h params => Sys2Proof.Machine.execEndJob h params s
  | .stationHold h params => Sys2Proof.Machine.execStationHold h params s
  | .stationRelease h params => Sys2Proof.Machine.execStationRelease h params s
  | .stationStop h params => Sys2Proof.Machine.execStationStop h params s
  | .stationReset h params => Sys2Proof.Machine.execStationReset h params s
  | .stationPark h params => Sys2Proof.Machine.execStationPark h params s
  | .stationResume h params => Sys2Proof.Machine.execStationResume h params s
  | .setQuota h params => Sys2Proof.Machine.execSetQuota h params s
  | .setTimer h params => Sys2Proof.Machine.execSetTimer h params s
  | .setMatch h params => Sys2Proof.Machine.execSetMatch h params s
  | .sense h data => Sys2Proof.Machine.execSense h data s
  | .report h data => Sys2Proof.Machine.execReport h data s
  | .echo h data => Sys2Proof.Machine.execEcho h data s
  | .attentionSetup h params => Sys2Proof.Machine.execAttentionSetup h params s
  | .imagerSetup h params => Sys2Proof.Machine.execImagerSetup h params s
  | .deviceClear h params => Sys2Proof.Machine.execDeviceClear h params s
  | .libraryClear h params => Sys2Proof.Machine.execLibraryClear h params s
  | .idleTimerExpiry station => Sys2Proof.Machine.execIdleTimerExpiry station s
  | .rawLevelChange line level => Sys2Proof.Machine.execRawLevelChange line level s
  | .debouncedReadyFall => Sys2Proof.Machine.execDebouncedReadyFall s
  | .debouncedReadyRise => Sys2Proof.Machine.execDebouncedReadyRise s
  | .debouncedFaultRise => Sys2Proof.Machine.execDebouncedFaultRise s
  | .debouncedFaultFall => Sys2Proof.Machine.execDebouncedFaultFall s
  | .debouncedCoverChange level => Sys2Proof.Machine.execDebouncedCoverChange level s
  | .debouncedMediaLowChange level => Sys2Proof.Machine.execDebouncedMediaLowChange level s
  | .holdSwitchOn => Sys2Proof.Machine.execHoldSwitchOn s
  | .holdSwitchOff => Sys2Proof.Machine.execHoldSwitchOff s
  | .arbiterChoice => Sys2Proof.Machine.execArbiterChoice s
  | .pageCloseSent => Sys2Proof.Machine.execPageCloseSent s
  | .pageVoidSent => Sys2Proof.Machine.execPageVoidSent s
  | .taken sum => Sys2Proof.Machine.execTaken sum s
  | .refused reason sum => Sys2Proof.Machine.execRefused reason sum s
  | .imaged station page sum => Sys2Proof.Machine.execImaged station page sum s
  | .spoiled station page sum => Sys2Proof.Machine.execSpoiled station page sum s
  | .replyTimerExpiry => Sys2Proof.Machine.execReplyTimerExpiry s
  | .imagingTimerExpiry => Sys2Proof.Machine.execImagingTimerExpiry s
  | .imagerLinkQuietTest bytes => Sys2Proof.Machine.execImagerLinkQuietTest bytes s
  | .byteTaken b => Sys2Proof.Machine.execByteTaken b s

end Sys2Proof.Machine
end

