-- ==== Sys2Proof/WellFormed.lean ====
section
/-! DEFINITION. Well-formed commands: an order's data has a length its layout allows (R170 step 2, the order
code table of R178, R179, R181). The machine answers ill-formed orders too, with BAD LENGTH; the check says which
terms a computer that keeps to the formats sends. -/

namespace Sys2Proof

/-- `n` is a fixed part of `base` bytes and a whole number of 2-byte elements, within one frame. -/
def elementLength (base n : Nat) : Bool := base ≤ n && (n - base) % 2 == 0 && n ≤ 1023

/-- A layout's data is 16 + 7c bytes for the column count c of data byte 14, 1 to 6. -/
def layoutLength (data : List Byte) : Bool :=
  match data[14]? with
  | some c => 1 ≤ c.toNat && c.toNat ≤ 6 && data.length == 16 + 7 * c.toNat
  | none => false

/-- The check of one command. -/
def Instr.wellFormed : Instr → Bool
  | .print _ d => 1 ≤ d.length && d.length ≤ 1023
  | .move _ d => d.length == 1
  | .select _ d => d.length == 4
  | .loadDrum _ d => elementLength 2 d.length
  | .loadTape _ d => elementLength 5 d.length
  | .loadLayout _ d => layoutLength d
  | .loadCollation _ d => d.length == 252
  | .loadConditions _ d => d.length == 16
  | .beginJob _ p => p.length == 4
  | .endJob _ p => p.length == 4
  | .stationHold _ p => p.length == 4
  | .stationRelease _ p => p.length == 4
  | .stationStop _ p => p.length == 4
  | .stationReset _ p => p.length == 4
  | .stationPark _ p => p.length == 4
  | .stationResume _ p => p.length == 4
  | .setQuota _ p => p.length == 4
  | .setTimer _ p => p.length == 4
  | .setMatch _ p => p.length == 4
  | .sense _ d => d.length == 1
  | .report _ d => d.length == 1
  | .echo _ d => d.length ≤ 1023
  | .attentionSetup _ p => p.length == 2
  | .imagerSetup _ p => p.length == 12
  | .deviceClear _ p => p.length == 0
  | .libraryClear _ p => p.length == 2
  | .powerOn => true
  | .linkReset => true
  | .linkResetRelease => true
  | .endingStatusRead => true
  | .interByteTimerExpiry => true
  | .idleTimerExpiry _ => true
  | .rawLevelChange _ _ => true
  | .debouncedReadyFall => true
  | .debouncedReadyRise => true
  | .debouncedFaultRise => true
  | .debouncedFaultFall => true
  | .debouncedCoverChange _ => true
  | .debouncedMediaLowChange _ => true
  | .holdSwitchOn => true
  | .holdSwitchOff => true
  | .arbiterChoice => true
  | .pageCloseSent => true
  | .pageVoidSent => true
  | .taken _ => true
  | .refused _ _ => true
  | .imaged _ _ _ => true
  | .spoiled _ _ _ => true
  | .replyTimerExpiry => true
  | .imagingTimerExpiry => true
  | .imagerLinkQuietTest _ => true
  | .byteTaken _ => true

end Sys2Proof
end

