-- ==== Sys2Proof/Safety.lean ====
section
/-! DEFINITION. What counts as a legal state of the part: the laws the manual states of whole states, each as a check
that can be run. -/

namespace Sys2Proof.Machine

/-- Every station satisfies `f`. -/
def State.allStations (s : State) (f : Station → Bool) : Bool :=
  f (s.station 0) && f (s.station 1) && f (s.station 2) && f (s.station 3)

/-! ## Stations -/

/-- A strike list never holds more than 3 strikes (Law of R52). -/
def Station.strikesBounded (st : Station) : Bool :=
  st.strikes.toList.all fun p => p.strikes.length ≤ Config.maxStrikes

def State.strikesBounded (s : State) : Bool := s.allStations Station.strikesBounded

/-- A station has a stop code exactly when it is STOPPED (R5). -/
def Station.stopCodeAgrees (st : Station) : Bool := (st.stopCode != .none) == (st.state == .stopped)

def State.stopCodesAgree (s : State) : Bool := s.allStations Station.stopCodeAgrees

/-- A READY station has no hold cause and a HELD one has at least one (R2). -/
def Station.holdsAgree (st : Station) : Bool :=
  (st.state != .ready || st.holds.isEmpty) && (st.state != .held || !st.holds.isEmpty)

def State.holdsAgree (s : State) : Bool := s.allStations Station.holdsAgree

/-- The idle timer is off exactly when the running condition fails (R21), and a DRAINING station has no open page and
no pending strikes (R10). -/
def Station.idleAgrees (st : Station) : Bool :=
  ((st.idle != .off) == st.meetsRunning) && (st.state != .draining || !st.busy)

def State.idleAgrees (s : State) : Bool := s.allStations Station.idleAgrees

/-- The report list holds at most 8 summaries (R23) and the page number is at least 1 (R1). -/
def Station.reportsBounded (st : Station) : Bool := st.reports.length ≤ Config.reportCap && st.page != 0

/-- The page number of a parked record is at least 1 (R15). -/
def parkPageOk : Option ParkRecord → Bool
  | none => true
  | some r => r.page != 0

def State.reportsBounded (s : State) : Bool :=
  s.allStations Station.reportsBounded && s.parks.toList.all parkPageOk

/-! ## Pages -/

/-- Line records in strictly ascending carriage line (Law of R78). -/
def ascending : List LineRecord → Bool
  | [] => true
  | [_] => true
  | a :: b :: rest => a.line < b.line && ascending (b :: rest)

/-- Every page's line records ascend, and those of the open page lie above the carriage line (R59, R78). -/
def Station.pagesAscend (st : Station) : Bool :=
  st.queue.all (fun p => ascending p.lines) &&
  (match st.openPage with
   | none => true
   | some p => ascending p.lines && p.lines.all fun r => r.line < st.line)

def State.pagesAscend (s : State) : Bool := s.allStations Station.pagesAscend

/-- At most 16 slots are owned, no station owns more than 12, and each quota is 1 to 12 (R1, R135, Law of R136). -/
def State.storeBounded (s : State) : Bool :=
  s.owned ≤ Config.slotCount &&
  s.allStations fun st => st.holdings ≤ Config.maxQuota && 1 ≤ st.quota && st.quota ≤ Config.maxQuota

/-- A closed page that is not at the imager. -/
def Page.rests (p : Page) : Bool := p.state == .waiting || p.state == .spoiled

/-- The slot state of the page in flight in each port state with one (R150). -/
def PortState.slotState : PortState → Option SlotState
  | .sending => some .sending
  | .awaitingTaken => some .awaiting
  | .imaging => some .awaiting
  | _ => none

/-- Station `i`'s slots agree with the port: its open page is OPEN, and its closed pages rest, but for the head of the
queue of the station whose page is in flight, which is in the port's slot state (R134, R140, R150). -/
def State.slotsAgreeAt (s : State) (i : StationId) : Bool :=
  ((s.station i).openPage.all fun p => p.state == .opened) &&
  (if s.port.flight = some i then
    match (s.station i).queue with
    | [] => false
    | p :: rest => some p.state == s.port.state.slotState && rest.all Page.rests
   else (s.station i).queue.all Page.rests)

/-- At most one page is at the imager port, it is the head of its owner's queue, the timers run in their port states (Law of
R140, R150), and the mark of a reply's return stands only while a choice is due (log entry 23). -/
def State.flightAgrees (s : State) : Bool :=
  s.slotsAgreeAt 0 && s.slotsAgreeAt 1 && s.slotsAgreeAt 2 && s.slotsAgreeAt 3 &&
  (s.port.flight.isSome || (s.port.state != .awaitingTaken && s.port.state != .imaging)) &&
  (s.port.replyTimer == (s.port.state == .awaitingTaken)) &&
  (s.port.imagingTimer.isSome == (s.port.state == .imaging)) &&
  (!s.port.returned || s.choiceDue)

/-! ## The library -/

/-- The number of stations and park slots whose selections satisfy `f`. -/
def State.holders (s : State) (f : Selections → Bool) : Nat :=
  s.stations.toList.countP (fun st => f st.sel) + s.parks.toList.countP fun p => p.any fun r => f r.sel

/-- Every reference count is the number of stations and park slots selecting the entry (Law of R116). -/
def State.refsAgree (s : State) : Bool :=
  (List.finRange 8).all (fun e =>
    s.library.refs.drum[e] == s.holders (fun x => x.drum == some e) &&
    s.library.refs.tape[e] == s.holders (fun x => x.tape == some e) &&
    s.library.refs.layout[e] == s.holders (fun x => x.layout == some e)) &&
  (List.finRange 4).all fun e => s.library.refs.coll[e] == s.holders fun x => x.coll == some e

/-- Every entry the selections name is VALID (R105). -/
def Library.holdsSelections (lib : Library) (sel : Selections) : Bool :=
  (sel.drum.all fun e => lib.drums[e].isSome) && (sel.tape.all fun e => lib.tapes[e].isSome) &&
  (sel.layout.all fun e => lib.layouts[e].isSome) && sel.coll.all fun e => lib.colls[e].isSome

/-- A station that runs has drum, tape and layout selected (R7, R14). -/
def Station.selectionsComplete (st : Station) : Bool :=
  (st.state != .ready && st.state != .held && st.state != .draining) || st.sel.complete

/-- Every entry a station or park slot selects is VALID, and stations in READY, HELD and DRAINING, and parked records,
have drum, tape and layout selected (R105, R7). -/
def State.selectionsValid (s : State) : Bool :=
  s.allStations (fun st => s.library.holdsSelections st.sel && st.selectionsComplete) &&
  s.parks.toList.all fun p => p.all fun r => s.library.holdsSelections r.sel && r.sel.complete

/-- A tape entry as LOAD TAPE takes it: form length 2 to 192, and a stop set for each line (R109). -/
def Tape.wellFormed (t : Tape) : Bool :=
  2 ≤ t.formLength && t.formLength ≤ 192 && t.stops.length == t.formLength && 1 ≤ t.overflow && t.overflow ≤ 12

/-- The carriage line lies within 1 to F of the selected tape, and is 1 with no tape selected (R1). -/
def Library.lineInForm (lib : Library) (st : Station) : Bool :=
  1 ≤ st.line &&
  match st.sel.tape with
  | none => st.line == 1
  | some e => lib.tapes[e].any fun t => st.line ≤ t.formLength

/-- Every VALID tape is well formed, every carriage line lies on its form, and parked lines are at least 1 (R1, R109). -/
def State.linesInForms (s : State) : Bool :=
  s.library.tapes.toList.all (fun t => t.all Tape.wellFormed) &&
  s.allStations (s.library.lineInForm ·) &&
  s.parks.toList.all fun p => p.all fun r => 1 ≤ r.line

/-! ## The link -/

/-- The inter-byte timer runs exactly in RECEIVING and DISCARDING (R168). -/
def Receive.timed : Receive → Bool
  | .receiving _ _ => true
  | .discarding _ => true
  | _ => false

def State.timerAgrees (s : State) : Bool := s.link.interByte == s.link.receive.timed

/-- Every law above. -/
def State.legal (s : State) : Bool :=
  s.strikesBounded && s.stopCodesAgree && s.holdsAgree && s.idleAgrees && s.reportsBounded && s.pagesAscend &&
  s.storeBounded && s.flightAgrees && s.refsAgree && s.selectionsValid && s.linesInForms && s.timerAgrees

/-! ## Terms of the statements -/

/-- The lead byte's fields of an order with head `h` and order code `code` (R178). -/
def leadOf (h : Head) (code : BitVec 5) : Lead := ⟨h.station, h.seq, code⟩

/-- An order frame: its lead, its data bytes and the sum of all its bytes (R178, R179). -/
structure OrderFrame where
  lead : Lead
  data : List Byte
  sum : Byte
  deriving DecidableEq, Repr

/-- The frame an order row stands for, by the order codes of R178 and the sub-function codes of R180; `none` for the rows
that are no orders. -/
def orderFrame : Instr → Option OrderFrame
  | .print h d => some ⟨leadOf h 0x01, d, h.sum⟩
  | .move h d => some ⟨leadOf h 0x02, d, h.sum⟩
  | .select h d => some ⟨leadOf h 0x03, d, h.sum⟩
  | .loadDrum h d => some ⟨leadOf h 0x04, d, h.sum⟩
  | .loadTape h d => some ⟨leadOf h 0x05, d, h.sum⟩
  | .loadLayout h d => some ⟨leadOf h 0x06, d, h.sum⟩
  | .loadCollation h d => some ⟨leadOf h 0x07, d, h.sum⟩
  | .loadConditions h d => some ⟨leadOf h 0x08, d, h.sum⟩
  | .beginJob h p => some ⟨leadOf h 0x09, 0x01 :: p, h.sum⟩
  | .endJob h p => some ⟨leadOf h 0x09, 0x02 :: p, h.sum⟩
  | .stationHold h p => some ⟨leadOf h 0x09, 0x03 :: p, h.sum⟩
  | .stationRelease h p => some ⟨leadOf h 0x09, 0x04 :: p, h.sum⟩
  | .stationStop h p => some ⟨leadOf h 0x09, 0x05 :: p, h.sum⟩
  | .stationReset h p => some ⟨leadOf h 0x09, 0x06 :: p, h.sum⟩
  | .stationPark h p => some ⟨leadOf h 0x09, 0x07 :: p, h.sum⟩
  | .stationResume h p => some ⟨leadOf h 0x09, 0x08 :: p, h.sum⟩
  | .setQuota h p => some ⟨leadOf h 0x09, 0x09 :: p, h.sum⟩
  | .setTimer h p => some ⟨leadOf h 0x09, 0x0A :: p, h.sum⟩
  | .setMatch h p => some ⟨leadOf h 0x09, 0x0B :: p, h.sum⟩
  | .sense h d => some ⟨leadOf h 0x0A, d, h.sum⟩
  | .report h d => some ⟨leadOf h 0x0B, d, h.sum⟩
  | .attentionSetup h p => some ⟨leadOf h 0x0C, 0x01 :: p, h.sum⟩
  | .imagerSetup h p => some ⟨leadOf h 0x0C, 0x02 :: p, h.sum⟩
  | .deviceClear h p => some ⟨leadOf h 0x0C, 0x03 :: p, h.sum⟩
  | .libraryClear h p => some ⟨leadOf h 0x0C, 0x04 :: p, h.sum⟩
  | .echo h d => some ⟨leadOf h 0x0D, d, h.sum⟩
  | .powerOn => none
  | .linkReset => none
  | .linkResetRelease => none
  | .endingStatusRead => none
  | .interByteTimerExpiry => none
  | .idleTimerExpiry _ => none
  | .rawLevelChange _ _ => none
  | .debouncedReadyFall => none
  | .debouncedReadyRise => none
  | .debouncedFaultRise => none
  | .debouncedFaultFall => none
  | .debouncedCoverChange _ => none
  | .debouncedMediaLowChange _ => none
  | .holdSwitchOn => none
  | .holdSwitchOff => none
  | .arbiterChoice => none
  | .pageCloseSent => none
  | .pageVoidSent => none
  | .taken _ => none
  | .refused _ _ => none
  | .imaged _ _ _ => none
  | .spoiled _ _ _ => none
  | .replyTimerExpiry => none
  | .imagingTimerExpiry => none
  | .imagerLinkQuietTest _ => none
  | .byteTaken _ => none

/-! Places in replies and records: offsets count from 0, as the tables of R182 do. -/

/-- The byte at offset `k`. -/
def byteAt (r : List Byte) (k : Nat) : Byte := r.getD k 0

/-- The two-byte number at offset `k`, high byte first. -/
def halfAt (r : List Byte) (k : Nat) : Half := byteAt r k ++ byteAt r (k + 1)

/-- The four-byte number at offset `k`, high byte first. -/
def wordAt (r : List Byte) (k : Nat) : Word := halfAt r k ++ halfAt r (k + 2)

/-- The eight bits of the byte at offset `k`, bit 0 first. -/
def bitsAt (r : List Byte) (k : Nat) : List Bool := (List.range 8).map (byteAt r k).getLsbD

/-- A number's two bytes, high byte first. -/
def twoBytes (n : Nat) : List Byte := [BitVec.ofNat 8 (n / 256), BitVec.ofNat 8 n]

/-- Commands carried out one after another. -/
def execAll : List Instr → State → Host.Outcome State Fault Refusal
  | [], s => .next s
  | c :: cs, s =>
    match exec c s with
    | .next t => execAll cs t
    | .fault f => .fault f
    | .refused r => .refused r

/-- The link awaits a frame, the frame with head `h` has a right check byte, and no choice of the arbiter is due (R141: a due
choice is made before any command, as `Obligations.ArbiterChoosesInTurn` states). -/
abbrev State.accepts (s : State) (h : Head) : Prop :=
  s.link.receive = .awaitLead ∧ h.sum = 0 ∧ s.choiceDue = false

/-- The strikes a drum entry gives (R48); none where the position has no print byte. -/
def strikesOf : Option DrumEntry → List Strike
  | some (.glyph g) => [.glyph g]
  | some (.substitute g) => [.glyph g]
  | some .underscore => [.underscore]
  | some .blank => []
  | some .absent => []
  | none => []

/-- The pending line after print bytes: each of the first 132 adds its strike to its position, or is dropped and marked where
three stand there already (R49, R53, R54). -/
def struckLine (drum : DrumTable) (bytes : List Byte) (old : Vector Position 132) : Vector Position 132 :=
  Vector.ofFn fun p =>
    let new := strikesOf (bytes[p.val]?.map (lookDrum drum))
    if new = [] then old[p]
    else if old[p].strikes.length < 3 then { old[p] with strikes := old[p].strikes ++ new }
    else { old[p] with excess := true }

/-- The conditions of print bytes, in the order they are raised: LINE TOO LONG, EXCESS STRIKE at each position first dropped
at, ascending, NOT ON DRUM and SUBSTITUTED at their lowest positions (R50, R51, R53, R54). -/
def strikeEntries (drum : DrumTable) (bytes : List Byte) (st : Station) : List CondEntry :=
  let entry (k : Condition) (p : Option Nat) : CondEntry := ⟨k, st.page, st.line, p, none⟩
  let lowest (k : Condition) (kind : DrumEntry → Bool) : List CondEntry :=
    ((bytes.take 132).findIdx? fun b => kind (lookDrum drum b)).toList.map fun p => entry k (some (p + 1))
  (if 132 < bytes.length then [entry .lineTooLong none] else []) ++
  (((List.finRange 132).filter fun p =>
    strikesOf (bytes[p.val]?.map (lookDrum drum)) ≠ [] ∧ 3 ≤ st.strikes[p].strikes.length ∧
      st.strikes[p].excess = false).map fun p => entry .excessStrike (some (p.val + 1))) ++
  lowest .notOnDrum (fun x => x == .absent) ++
  lowest .substituted fun x => match x with
    | .substitute _ => true
    | _ => false

/-- The work of an order after its print bytes have been recorded (R53). -/
def Work.recorded (t : Tools) (bytes : List Byte) (w : Work) : Work :=
  (strikeEntries t.drum bytes w.st).foldl (fun x e => x.raise t.table e)
    { w with st := { w.st with strikes := struckLine t.drum bytes w.st.strikes } }

/-- A line's raw and debounced levels at `level`, with the attention cause of a selected edge (R151, R152), and nothing
else changed. -/
def State.lineAt (s : State) (l : Line) (level : Bool) : State :=
  { s with
    port := { s.port with raw := s.port.raw.put l level, debounced := s.port.debounced.put l level }
    link := if (s.port.setup.edges.get l).names level then { s.link with causes := s.link.causes.lineChange l } else s.link }

/-- The port without a page, in state `dest`. -/
def State.portAt (s : State) (dest : PortState) : State :=
  { s with port := { s.port with
      state := dest, flight := none, replyTimer := false, imagingTimer := none, outgoing := [] } }

/-- Station `i` after its page in flight `p`, with `rest` behind it in the queue, has spoiled (R162): SPOILED at the head,
its spoil count risen and at most 15; IMAGER TIMEOUT raised if a timer spoiled it, then REPEATED SPOIL at the third spoil. -/
def State.spoiledOwner (s : State) (i : StationId) (timeout : Bool) (p : Page) (rest : List Page) : Station :=
  let table := s.library.dispositions
  let line := (s.station i).line
  let st1 := { s.station i with queue := { p with state := .spoiled, spoils := min 15 (p.spoils + 1) } :: rest }
  let st2 := if timeout then st1.raise table ⟨.imagerTimeout, p.page, line, none, none⟩ else st1
  if p.spoils = 2 then st2.raise table ⟨.repeatedSpoil, p.page, line, none, none⟩ else st2

end Sys2Proof.Machine
end

