-- ==== Sys2Proof/Certificates/Slice0/Obligations.lean ====
section
/-! DEFINITION. The statements for the provers. Each says what a rule of the manual says a command or the part does;
OBLIGATIONS.json gives each its rule, title and tier. `leadOf`, `orderFrame`, `State.accepts` and the other terms of the
statements stand in Safety.lean. A statement that an order's outcome is `(t).owe lead answer` says that the link then owes
the ending status of R171 and R172 that answers with `answer`, and that everything else is as in `t`. -/

open Sys2Proof Sys2Proof.Machine

/-! ## The part as a whole -/

/-- A step carries out the command at the front of the queue. The second clause is the model's own choice (log entry 1):
with no command waiting the part idles. -/
def Obligations.StepRunsFrontCommand : Prop :=
  (∀ (s : State) (c : Instr) (rest : List Instr), s.pending = c :: rest → step s = exec c { s with pending := rest }) ∧
  (∀ s : State, s.pending = [] → step s = .next s)

/-- Every command, in every state, answers a next state (R167 and R170 for what the link takes). Two parts are the model's own
choices: that an event without its premise is answered by no change (log entry 5), and that the waiting commands, a field of
the model's own, are left alone (log entry 1). -/
def Obligations.EveryCommandAnswersNext : Prop :=
  ∀ (c : Instr) (s : State), ∃ t, exec c s = .next t ∧ t.pending = s.pending

/-- The state after power-on obeys every law of Safety.lean. -/
def Obligations.ResetIsLegal : Prop := State.reset.legal = true

/-! ## Laws every step keeps -/

/-- Laws of R52 and R23: strike lists hold at most 3 strikes, report lists at most 8 summaries, and page numbers are at least 1. -/
def Obligations.StepKeepsBounds : Prop :=
  ∀ s t : State, (s.strikesBounded && s.reportsBounded) = true → step s = .next t →
    (t.strikesBounded && t.reportsBounded) = true

/-- R2 and R5: a stop code stands exactly at a STOPPED station, no hold cause at a READY one and some at a HELD one. -/
def Obligations.StepKeepsStatesAndHolds : Prop :=
  ∀ s t : State, (s.stopCodesAgree && s.holdsAgree) = true → step s = .next t → (t.stopCodesAgree && t.holdsAgree) = true

/-- R21 and R10: an idle timer is off exactly when the running condition fails, and a DRAINING station composes nothing.
That an expired timer goes to off with the running condition is deduced (log entry 17). -/
def Obligations.StepKeepsIdleTimers : Prop :=
  ∀ s t : State, s.idleAgrees = true → step s = .next t → t.idleAgrees = true

/-- Law of R78: the line records of every page stand in strictly ascending carriage line. -/
def Obligations.StepKeepsPagesAscending : Prop :=
  ∀ s t : State, s.pagesAscend = true → step s = .next t → t.pagesAscend = true

/-- Law of R136 and R135: at most 16 slots are owned, at most 12 by one station, and quotas are 1 to 12. -/
def Obligations.StepKeepsStoreBounded : Prop :=
  ∀ s t : State, s.storeBounded = true → step s = .next t → t.storeBounded = true

/-- Law of R140 and the table of R150: at most one page is at the imager, the head of its owner's queue, in the slot state of
the port state; the timers run in their port states. That the mark of a reply's return stands only while a choice is due is of the
model's own (log entry 23). -/
def Obligations.StepKeepsFlight : Prop :=
  ∀ s t : State, s.flightAgrees = true → step s = .next t → t.flightAgrees = true

/-- Law of R116: every reference count is the number of stations and park slots that select the entry. -/
def Obligations.StepKeepsReferences : Prop :=
  ∀ s t : State, s.refsAgree = true → step s = .next t → t.refsAgree = true

/-- R105 and R7: every selected entry is VALID, and stations that run have drum, tape and layout selected. -/
def Obligations.StepKeepsSelectionsValid : Prop :=
  ∀ s t : State, (s.refsAgree && s.selectionsValid) = true → step s = .next t →
    (t.refsAgree && t.selectionsValid) = true

/-- R1 and R109: every carriage line lies on its form, and every VALID tape has F of 2 to 192 and a stop set for each line. -/
def Obligations.StepKeepsLinesInForms : Prop :=
  ∀ s t : State, (s.refsAgree && s.selectionsValid && s.linesInForms) = true → step s = .next t →
    (t.refsAgree && t.selectionsValid && t.linesInForms) = true

/-- R168: the inter-byte timer runs in RECEIVING and DISCARDING and in no other receive state. -/
def Obligations.StepKeepsInterByteTimer : Prop :=
  ∀ s t : State, s.timerAgrees = true → step s = .next t → t.timerAgrees = true

/-! ## The print link -/

/-- An order row is its frame: on a link that awaits a frame it does what its frame's bytes do, taken one by one
(R167, R168, R178, R179).
That a row stands for its whole frame, and that the completing byte has it answered, is deduced (log entries 7 and 8). -/
def Obligations.OrderIsItsBytes : Prop :=
  ∀ (c : Instr) (f : OrderFrame) (s : State), orderFrame c = some f → s.link.receive = .awaitLead →
    f.data.length ≤ 1023 →
    exec c s = execAll ((frameBytes f.lead f.data f.sum).map Instr.byteTaken) s

/-- An order not answered DONE changes nothing but the link's owed status (R6, R169, R170). The second byte of an ending status
is its result. Said of states in which no choice of the arbiter is due (R141). -/
def Obligations.UndoneOrderChangesNothing : Prop :=
  ∀ (c : Instr) (f : OrderFrame) (s t : State) (result : Byte) (rest : List Byte),
    orderFrame c = some f → s.link.receive = .awaitLead → s.choiceDue = false → f.data.length ≤ 1023 → exec c s = .next t →
    t.link.receive = .statusOwed f.lead.toByte (result :: rest) → result ≠ 0x00 →
    t = { s with link := { s.link with receive := t.link.receive, interByte := false } }

/-- An order for a station leaves the other stations, every table, the port and the pointer alone; a load or ECHO leaves every
station, the park slots, the reference counts, the port and the pointer alone (R106, R170, R174). Said of states in which no
choice of the arbiter is due (R141). -/
def Obligations.OrderReachesOnlyItsOwner : Prop :=
  ∀ (c : Instr) (f : OrderFrame) (s t : State), orderFrame c = some f → s.link.receive = .awaitLead →
    s.choiceDue = false → f.data.length ≤ 1023 → exec c s = .next t →
    (f.lead.code ∈ [0x01, 0x02, 0x03, 0x09, 0x0A, 0x0B] →
      (∀ j, j ≠ f.lead.station → t.station j = s.station j) ∧ t.port = s.port ∧ t.pointer = s.pointer ∧
      t.library.drums = s.library.drums ∧ t.library.tapes = s.library.tapes ∧
      t.library.layouts = s.library.layouts ∧ t.library.colls = s.library.colls ∧
      t.library.dispositions = s.library.dispositions) ∧
    (f.lead.code ∈ [0x04, 0x05, 0x06, 0x07, 0x08, 0x0D] →
      (∀ j, t.station j = s.station j) ∧ t.parks = s.parks ∧ t.port = s.port ∧ t.pointer = s.pointer ∧
      t.library.refs = s.library.refs)

/-- A frame with a wrong check byte is answered FRAME ERROR, CHECK; one with a right check byte whose data has a length its
order does not allow is answered REFUSED, BAD LENGTH (R169, R170 step 2, R179). Said where no choice of the arbiter is due
(R141). -/
def Obligations.UnfitFramesAnswered : Prop :=
  ∀ (c : Instr) (f : OrderFrame) (s : State), orderFrame c = some f → s.link.receive = .awaitLead →
    s.choiceDue = false → f.data.length ≤ 1023 →
    (f.sum ≠ 0 → exec c s = .next (s.owe f.lead (.frameError .check))) ∧
    (f.sum = 0 → c.wellFormed = false → exec c s = .next (s.owe f.lead (.refused .badLength)))

/-- A lead byte holds the station in bits 7 and 6, the sequence bit in bit 5 and the order code in bits 4 to 0, and lead bytes
decode to the fields they were made of and back (R178); numbers stand high byte first. An order frame is its lead, the data
length, the data and the byte that makes the sum (R178, R179). An ending status is owed as the lead echo, the result, the reason,
the summary flags, the reply length, the reply data and a check byte, and building it stops the inter-byte timer and changes
nothing else; its state flags show the lead's station as it stands, its order flags what the order did (R168, R171, R172, R175,
R178). The answers DONE, RETRY, REFUSED and FRAME ERROR have the order flags clear and no reply data unless a statement says more.
The bytes of every ending status, of every record of a page and of a PAGE VOID record sum to 0 (R179, R183). A page's records are PAGE OPEN, its LINE records, GUIDE unless both guides
are absent, and PAGE CLOSE, each laid out as R183 gives, as is PAGE VOID (R155, R156). A number too large for its field, which no
run has, is given modulo the field, the model's choice (log entry 18). -/
def Obligations.FramesDecodeAndSum : Prop :=
  (∀ l : Lead, Lead.ofByte l.toByte = l) ∧ (∀ b : Byte, (Lead.ofByte b).toByte = b) ∧
  (∀ b : Byte, (Lead.ofByte b).station.val = b.toNat / 64 ∧ (Lead.ofByte b).seq = b.getLsbD 5 ∧
    (Lead.ofByte b).code.toNat = b.toNat % 32) ∧
  (∀ a b c d : Byte, (be16 a b).toNat = a.toNat * 256 + b.toNat ∧
    (be32 a b c d).toNat = (be16 a b).toNat * 65536 + (be16 c d).toNat) ∧
  (∀ (l : Lead) (data : List Byte) (sum : Byte), ∃ c : Byte,
    frameBytes l data sum = [l.toByte] ++ twoBytes data.length ++ data ++ [c] ∧ sumBytes (frameBytes l data sum) = sum) ∧
  (Answer.done = ⟨.done, .none, false, false, false, false, []⟩ ∧
    Answer.retry = ⟨.retry, .none, false, false, false, false, []⟩ ∧
    ∀ r : Reason, Answer.refused r = ⟨.refused, r, false, false, false, false, []⟩ ∧
      Answer.frameError r = ⟨.frameError, r, false, false, false, false, []⟩) ∧
  (∀ (s : State) (l : Lead) (a : Answer), ∃ (flags c : Byte),
    let st := s.station l.station
    let on := s.link.enable
    let result : Byte := match a.result with
      | .done => 0x00
      | .retry => 0x01
      | .refused => 0x02
      | .frameError => 0x03
    let reason : Byte := match a.reason with
      | .none => 0x00
      | .unknownOrder => 0x01
      | .badLength => 0x02
      | .badField => 0x03
      | .notReady => 0x04
      | .stopped => 0x05
      | .wrongState => 0x06
      | .openPage => 0x07
      | .notAtTop => 0x08
      | .inUse => 0x09
      | .emptyEntry => 0x0A
      | .noParkSlot => 0x0B
      | .slotEmpty => 0x0C
      | .truncated => 0x10
      | .length => 0x11
      | .check => 0x12
    s.owe l a = { s with link := { s.link with
      receive := .statusOwed l.toByte ([result, reason, flags] ++ twoBytes a.reply.length ++ a.reply ++ [c])
      interByte := false } } ∧
    s.statusTail l a = [result, reason, flags] ++ twoBytes a.reply.length ++ a.reply ++ [c] ∧
    flags.getLsbD 0 = a.pageClosed ∧ flags.getLsbD 1 = a.loadStuck ∧ flags.getLsbD 2 = a.duplicate ∧
    flags.getLsbD 3 = a.condition ∧ flags.getLsbD 4 = st.overflow ∧ flags.getLsbD 5 = decide (st.state = .stopped) ∧
    flags.getLsbD 6 = (st.holds.order || st.holds.condition || st.holds.panel) ∧
    (flags.getLsbD 7 = true ↔
      (∃ i, let x := (s.station i).causes
        x.conditionNoted = true ∧ on.conditionNoted = true ∨ x.stopped = true ∧ on.stopped = true ∨
        x.countReached = true ∧ on.countReached = true ∨ x.drained = true ∧ on.drained = true ∨
        x.reportAdded = true ∧ on.reportAdded = true) ∨
      s.link.causes.imagerChange = true ∧ on.imagerChange = true ∨
      s.link.causes.panelChange = true ∧ on.panelChange = true)) ∧
  (∀ (s : State) (l : Lead) (a : Answer), sumBytes (l.toByte :: s.statusTail l a) = 0) ∧
  (∀ (p : Page) (i : StationId) (r : List Byte), r ∈ p.records i → sumBytes r = 0) ∧
  (∀ (p : Page) (i : StationId), sumBytes (p.voidRecord i) = 0) ∧
  (∀ (p : Page) (i : StationId),
    let glyph (g : Option Code) : Byte := g.elim 0x00 fun x => BitVec.ofNat 8 x.val
    let cell (c : PlacedCell) : List Byte :=
      twoBytes c.x ++ [glyph c.cell.base, (if c.cell.heavy then 0x01 else 0x00) ||| (if c.cell.underscore then 0x02 else 0x00) |||
        (if c.cell.second.isSome then 0x04 else 0x00)] ++ (if c.cell.second.isSome then [glyph c.cell.second] else [])
    let breakSet (r : LineRecord) : Byte :=
      BitVec.ofNat 8 (((List.range 6).map fun w => if p.markBreaks = true ∧ w ∈ r.breaks then 2 ^ w else 0).sum)
    let line (r : LineRecord) : List Byte :=
      [0x02] ++ twoBytes r.y ++ [breakSet r, BitVec.ofNat 8 r.cells.length] ++ r.cells.flatMap cell
    let guide (g : Option PlacedGuide) : List Byte := match g with
      | none => [0x00, 0x00, 0x00]
      | some g => [BitVec.ofNat 8 g.text.length] ++ twoBytes g.x ++ g.text.map fun x => BitVec.ofNat 8 x.val
    ∃ (o k v : Byte) (checks : List Byte) (guides : List (List Byte)), checks.length = p.lines.length ∧
      p.records i =
        [[0x01, BitVec.ofNat 8 i.val] ++ twoBytes p.job.toNat ++ twoBytes p.page.toNat ++ [BitVec.ofNat 8 p.lines.length] ++
          twoBytes p.width ++ twoBytes p.depth ++ [o]] ++
        ((p.lines.zip checks).map fun x => line x.1 ++ [x.2]) ++ guides ++ [[0x04, BitVec.ofNat 8 p.lines.length, k]] ∧
      (p.firstPlaced = none → p.lastPlaced = none → guides = []) ∧
      (p.firstPlaced.isSome = true ∨ p.lastPlaced.isSome = true → ∃ g : Byte,
        guides = [[0x03] ++ twoBytes p.guideRow ++ guide p.firstPlaced ++ guide p.lastPlaced ++ [g]]) ∧
      p.voidRecord i = [0x05, BitVec.ofNat 8 i.val] ++ twoBytes p.page.toNat ++ [v])

/-- What a byte offered does in each receive state (R167, R168, R169, R170 step 1), where no choice of the arbiter is due
(R141). The frames that no order row spells come by bytes alone: an unknown order code is UNKNOWN ORDER; a STATION frame of other
than five data bytes, and a DEVICE frame of none, is BAD LENGTH; a STATION frame of five data bytes whose sub-function is outside
01h to 0Bh, and a DEVICE frame whose sub-function is outside 01h to 04h, is BAD FIELD (R170, R179, R181). -/
def Obligations.ByteTakenFollowsReceiveState : Prop :=
  ∀ (s : State) (b lead hi lo : Byte) (more : List Byte), s.choiceDue = false →
    (s.link.receive = .awaitLead → exec (.byteTaken b) s = .next (s.setReceive (.receiving b []) true)) ∧
    (s.link.receive = .receiving lead [] → exec (.byteTaken b) s = .next (s.setReceive (.receiving lead [b]) true)) ∧
    (s.link.receive = .receiving lead [hi] →
      exec (.byteTaken b) s = .next (s.setReceive
        (if 1023 < (be16 hi b).toNat then .discarding lead else .receiving lead [hi, b]) true)) ∧
    (s.link.receive = .receiving lead (hi :: lo :: more) → more.length < (be16 hi lo).toNat →
      (be16 hi lo).toNat ≤ 1023 →
      exec (.byteTaken b) s = .next (s.setReceive (.receiving lead (hi :: lo :: (more ++ [b]))) true)) ∧
    (s.link.receive = .receiving lead (hi :: lo :: more) → more.length = (be16 hi lo).toNat →
      (be16 hi lo).toNat ≤ 1023 → sumBytes (lead :: hi :: lo :: (more ++ [b])) ≠ 0 →
      exec (.byteTaken b) s = .next (s.owe (Lead.ofByte lead) (.frameError .check))) ∧
    (s.link.receive = .receiving lead (hi :: lo :: more) → more.length = (be16 hi lo).toNat →
      (be16 hi lo).toNat ≤ 1023 → sumBytes (lead :: hi :: lo :: (more ++ [b])) = 0 →
      ((Lead.ofByte lead).code = 0x00 ∨ 0x0E ≤ (Lead.ofByte lead).code.toNat) →
      exec (.byteTaken b) s = .next (s.owe (Lead.ofByte lead) (.refused .unknownOrder))) ∧
    (s.link.receive = .receiving lead (hi :: lo :: more) → more.length = (be16 hi lo).toNat →
      (be16 hi lo).toNat ≤ 1023 → sumBytes (lead :: hi :: lo :: (more ++ [b])) = 0 →
      let answered (r : Reason) : Prop := exec (.byteTaken b) s = .next (s.owe (Lead.ofByte lead) (.refused r))
      ((Lead.ofByte lead).code = 0x09 → more.length ≠ 5 → answered .badLength) ∧
      ((Lead.ofByte lead).code = 0x09 → more.length = 5 →
        (byteAt more 0).toNat = 0 ∨ 0x0C ≤ (byteAt more 0).toNat → answered .badField) ∧
      ((Lead.ofByte lead).code = 0x0C → more = [] → answered .badLength) ∧
      ((Lead.ofByte lead).code = 0x0C → more ≠ [] →
        (byteAt more 0).toNat = 0 ∨ 0x05 ≤ (byteAt more 0).toNat → answered .badField)) ∧
    (s.link.receive = .discarding lead → exec (.byteTaken b) s = .next (s.setReceive (.discarding lead) true)) ∧
    (s.link.receive = .statusOwed lead more → exec (.byteTaken b) s = .next s) ∧
    (s.link.receive = .linkHeld → exec (.byteTaken b) s = .next s)

/-- The inter-byte timer's expiry ends the frame with TRUNCATED or LENGTH (R168); a read gives the next byte of the owed
status, the last one ending it, and has no effect where no status is owed (R167, R171). Said where no choice of the arbiter
is due (R141). -/
def Obligations.TimerExpiryAndReads : Prop :=
  ∀ s : State, s.choiceDue = false →
    (∀ (lead : Byte) (rest : List Byte), s.link.interByte = true → s.link.receive = .receiving lead rest →
      exec .interByteTimerExpiry s = .next (s.owe (Lead.ofByte lead) (.frameError .truncated))) ∧
    (∀ (lead : Byte), s.link.interByte = true → s.link.receive = .discarding lead →
      exec .interByteTimerExpiry s = .next (s.owe (Lead.ofByte lead) (.frameError .length))) ∧
    (∀ (b : Byte), s.link.receive = .statusOwed b [] →
      exec .endingStatusRead s = .next { s with link := { s.link with lastRead := some b, receive := .awaitLead } }) ∧
    (∀ (b c : Byte) (rest : List Byte), s.link.receive = .statusOwed b (c :: rest) →
      exec .endingStatusRead s = .next { s with link := { s.link with lastRead := some b, receive := .statusOwed c rest } }) ∧
    ((∀ b rest, s.link.receive ≠ .statusOwed b rest) → exec .endingStatusRead s = .next s)

/-- LINK RESET drops the frame or the owed status, stops the inter-byte timer and makes every expected bit 0, and leaves the
rest; while it lasts the link takes no byte; its release goes to AWAIT LEAD, where the next byte is a lead byte (R177). Where a
choice of the arbiter is due it is made first, which is deduced (R141, log entry 11): `u` is the state it leaves, `s` itself
where none is due, as `Obligations.ArbiterChoosesInTurn` states. -/
def Obligations.LinkResetAndRelease : Prop :=
  ∀ s : State,
    let u := s.arbitrate
    (s.choiceDue = false → u = s) ∧
    (∃ t, exec .linkReset s = .next t ∧
      t.link = { s.link with receive := .linkHeld, interByte := false } ∧
      (∀ i, t.station i = { u.station i with expected := false }) ∧
      t.parks = s.parks ∧ t.library = s.library ∧ t.port = u.port ∧ t.pointer = u.pointer ∧ t.pending = s.pending) ∧
    (∀ b : Byte, s.link.receive = .linkHeld → exec (.byteTaken b) s = .next u) ∧
    (s.link.receive = .linkHeld →
      exec .linkResetRelease s = .next { u with link := { s.link with receive := .awaitLead, interByte := false } }) ∧
    (∀ b : Byte, s.link.receive = .awaitLead → exec (.byteTaken b) s = .next (u.setReceive (.receiving b []) true))

/-- The values of every block after power-on (R1, R15, R52, R105, R113, R121, R134, R140, R150, R164, R167, R175). That the raw
levels of the lines stay as the pins present them is the model's choice (log entry 4), and so are the values of its own fields
for the records going out and for a reply's return (log entries 16 and 23). That every pending cause is clear, CONDITION NOTED
among them, is R175's word, which the model chooses where R132 says otherwise (log entry 24). -/
def Obligations.PowerOnValues : Prop :=
  ∀ s : State, ∃ t, exec .powerOn s = .next t ∧
    (∀ i, let st := t.station i
      st.state = .unloaded ∧ st.holds = ⟨false, false, false⟩ ∧ st.stopCode = .none ∧
      st.sel = ⟨none, none, none, none⟩ ∧ st.line = 1 ∧ st.overflow = false ∧ st.job = 0 ∧ st.page = 1 ∧
      st.expected = false ∧ st.counters = ⟨0, 0, 0, 0⟩ ∧ st.carry = none ∧ st.quota = 4 ∧ st.timerSetting = 0 ∧
      st.idle = .off ∧ st.matchValue = 0 ∧ st.reports = [] ∧ (∀ p : Fin 132, st.strikes[p] = ⟨[], false⟩) ∧
      st.record.first = none ∧ st.record.last = none ∧ (∀ k : Fin 16, st.record.counts[k] = 0) ∧
      st.causes = ⟨false, false, false, false, false⟩ ∧ st.openPage = none ∧ st.queue = []) ∧
    (∀ k : Fin 4, t.parks[k] = none) ∧
    (∀ e : Fin 8, t.library.drums[e] = none ∧ t.library.tapes[e] = none ∧ t.library.layouts[e] = none ∧
      t.library.refs.drum[e] = 0 ∧ t.library.refs.tape[e] = 0 ∧ t.library.refs.layout[e] = 0) ∧
    (∀ e : Fin 4, t.library.colls[e] = none ∧ t.library.refs.coll[e] = 0) ∧
    t.library.dispositions.toList = [.ignore, .ignore, .ignore, .note, .note, .hold, .note, .note,
      .note, .note, .ignore, .note, .hold, .note, .note, .ignore] ∧
    t.port.state = .offline ∧ t.port.flight = none ∧ t.port.replyTimer = false ∧ t.port.imagingTimer = none ∧
    t.port.debounced = ⟨false, false, false, false, false⟩ ∧ t.port.raw = s.port.raw ∧ t.port.stray = 0 ∧
    t.port.returned = false ∧ t.port.outgoing = [] ∧
    t.port.setup = ⟨⟨.ms20, .ms20, .ms20, .ms20, .ms20⟩, ⟨.both, .rise, .both, .rise, .both⟩, 120⟩ ∧
    t.pointer = 3 ∧ t.link.receive = .awaitLead ∧ t.link.interByte = false ∧ t.link.causes = ⟨false, false⟩ ∧
    t.link.enable = ⟨true, true, true, true, true, true, true⟩ ∧ t.link.activeHigh = false

/-! ## Stations -/

/-- STATION HOLD adds ORDER in every state; a READY station goes to HELD and its idle timer to off (R11). -/
def Obligations.HoldAddsOrder : Prop :=
  ∀ (s : State) (h : Head) (p : List Byte), s.accepts h → p.length = 4 →
    let st := s.station h.station
    let holds : Holds := { st.holds with order := true }
    exec (.stationHold h p) s = .next ((s.setStation h.station
      (if st.state = .ready then { st with holds := holds, state := .held, idle := .off }
       else { st with holds := holds })).owe (leadOf h 0x09) .done)

/-- RELEASE removes ORDER and CONDITION and clears the first entry in every state, a HELD station going to READY when PANEL is
absent (R12, R21, R132). STOP takes READY, HELD and DRAINING stations to STOPPED with OPERATOR, is DONE without change
at a STOPPED one and refused at an UNLOADED one (R5, R13). -/
def Obligations.ReleaseAndStop : Prop :=
  (∀ (s : State) (h : Head) (p : List Byte), s.accepts h → p.length = 4 →
    let st := s.station h.station
    let released := { st with
      holds := { st.holds with order := false, condition := false }, record := { st.record with first := none } }
    (st.state ≠ .held ∨ st.holds.panel = true →
      exec (.stationRelease h p) s = .next ((s.setStation h.station released).owe (leadOf h 0x09) .done)) ∧
    (st.state = .held → st.holds.panel = false → st.idle = .off →
      exec (.stationRelease h p) s = .next ((s.setStation h.station
        { released with
          state := .ready
          idle := if st.timerSetting ≠ 0 ∧ st.busy = true then .running else .off }).owe (leadOf h 0x09) .done))) ∧
  (∀ (s : State) (h : Head) (p : List Byte), s.accepts h → p.length = 4 →
    let st := s.station h.station
    (st.state = .unloaded →
      exec (.stationStop h p) s = .next (s.owe (leadOf h 0x09) (.refused .wrongState))) ∧
    (st.state = .stopped → exec (.stationStop h p) s = .next (s.owe (leadOf h 0x09) .done)) ∧
    (st.state = .ready ∨ st.state = .held ∨ st.state = .draining →
      exec (.stationStop h p) s = .next ((s.setStation h.station
        { st with
          state := .stopped
          stopCode := .operator
          idle := .off
          causes := { st.causes with stopped := true } }).owe (leadOf h 0x09) .done)))

/-- STATION RESET returns the running state to its starting values and keeps selections, settings, queue and causes; the station
comes out READY, HELD under PANEL, or UNLOADED (R14).
That a station without selections stays UNLOADED under PANEL is deduced (log entry 15). -/
def Obligations.StationResetStartsAfresh : Prop :=
  ∀ (s : State) (h : Head) (p : List Byte), s.accepts h → p.length = 4 →
    let st := s.station h.station
    ∃ u, exec (.stationReset h p) s = .next ((s.setStation h.station u).owe (leadOf h 0x09) .done) ∧
      u.state = (if st.sel.drum.isSome = true ∧ st.sel.tape.isSome = true ∧ st.sel.layout.isSome = true then
        (if s.port.debounced.hold = true then .held else .ready) else .unloaded) ∧
      u.holds = ⟨false, false, s.port.debounced.hold⟩ ∧ u.stopCode = .none ∧ u.line = 1 ∧ u.overflow = false ∧
      u.job = 0 ∧ u.page = 1 ∧ u.expected = false ∧ u.counters = ⟨0, 0, 0, 0⟩ ∧ u.carry = none ∧ u.idle = .off ∧
      u.reports = [] ∧ (∀ k : Fin 132, u.strikes[k] = ⟨[], false⟩) ∧ u.record.first = none ∧ u.record.last = none ∧
      (∀ k : Fin 16, u.record.counts[k] = 0) ∧ u.openPage = none ∧
      u.sel = st.sel ∧ u.quota = st.quota ∧ u.timerSetting = st.timerSetting ∧ u.matchValue = st.matchValue ∧
      u.causes = st.causes ∧ u.queue = st.queue

/-- BEGIN JOB at a READY station that composes nothing sets job and page, the counters to 0 and the carry key absent, and
nothing else; the other states and a first page of 0 answer as R6 and R8 give. -/
def Obligations.BeginJobStartsCounting : Prop :=
  ∀ (s : State) (h : Head) (j1 j0 p1 p0 : Byte), s.accepts h →
    let st := s.station h.station
    let go := exec (.beginJob h [j1, j0, p1, p0]) s
    (be16 p1 p0 = 0 → go = .next (s.owe (leadOf h 0x09) (.refused .badField))) ∧
    (be16 p1 p0 ≠ 0 → st.state = .held → go = .next (s.owe (leadOf h 0x09) .retry)) ∧
    (be16 p1 p0 ≠ 0 → st.state ≠ .ready → st.state ≠ .held →
      go = .next (s.owe (leadOf h 0x09) (.refused .wrongState))) ∧
    (be16 p1 p0 ≠ 0 → st.state = .ready → st.openPage.isSome = true ∨ st.hasStrikes = true →
      go = .next (s.owe (leadOf h 0x09) (.refused .openPage))) ∧
    (be16 p1 p0 ≠ 0 → st.state = .ready → st.openPage = none → st.hasStrikes = false →
      go = .next ((s.setStation h.station
        { st with job := be16 j1 j0, page := be16 p1 p0, counters := ⟨0, 0, 0, 0⟩, carry := none }).owe
          (leadOf h 0x09) .done))

/-- END JOB at a READY station commits the pending line and closes the page there then is as at a form end, with its numbers, its
lines and at most one line more, marked END JOB; the station is at line 1 without a carry key, DRAINING while it owns slots,
otherwise READY or HELD with DRAINED raised. It is STOPPED only if a condition of that commit and close stopped it, so never
without a page and never where no disposition is HOLD or STOP (R9, R66). LISTINGS are those of the commit (R96). Where a slot is needed and cannot be opened, and in
the other states, it changes nothing. -/
def Obligations.EndJobFinishesTheJob : Prop :=
  ∀ (s : State) (h : Head) (p : List Byte), s.accepts h → p.length = 4 →
    let st := s.station h.station
    let page := st.openPage.isSome || st.hasStrikes
    let tools := s.library.tools st.sel
    (st.state = .held → exec (.endJob h p) s = .next (s.owe (leadOf h 0x09) .retry)) ∧
    (st.state ≠ .ready → st.state ≠ .held →
      exec (.endJob h p) s = .next (s.owe (leadOf h 0x09) (.refused .wrongState))) ∧
    (st.state = .ready → st.hasStrikes = true → st.openPage = none → s.canOpen h.station = false →
      exec (.endJob h p) s = .next (s.owe (leadOf h 0x09) .retry)) ∧
    (st.state = .ready → (st.hasStrikes = true → st.openPage = none → s.canOpen h.station = true) →
      ∃ (u : Station) (noted : Bool),
        exec (.endJob h p) s = .next ((s.setStation h.station u).owe (leadOf h 0x09)
          { Answer.done with condition := noted, pageClosed := page }) ∧
        u.line = 1 ∧ u.overflow = false ∧ u.carry = none ∧ u.idle = .off ∧ u.openPage = none ∧
        (∀ k : Fin 132, u.strikes[k] = ⟨[], false⟩) ∧
        u.sel = st.sel ∧ u.job = st.job ∧ u.expected = st.expected ∧ u.quota = st.quota ∧
        u.timerSetting = st.timerSetting ∧ u.matchValue = st.matchValue ∧ u.reports = st.reports ∧
        u.counters.lines = (if st.hasStrikes then st.counters.lines + 1 else st.counters.lines) ∧
        u.counters.imaged = st.counters.imaged ∧
        u.counters.closed = (if page then st.counters.closed + 1 else st.counters.closed) ∧
        u.page = (if page then (if st.page = 0xFFFF then 1 else st.page + 1) else st.page) ∧
        (page = false → u.queue = st.queue ∧ u.counters.listings = st.counters.listings) ∧
        (page = true →
          let w := formEnd tools (commit tools ⟨st, false, false⟩)
          ∃ q : Page, u.queue = st.queue ++ [q] ∧ w.st.queue = st.queue ++ [{ q with endJob := false }] ∧
            q.state = .waiting ∧ q.endJob = true ∧
            (∀ p, st.openPage = some p → q.job = p.job ∧ q.page = p.page) ∧
            (st.openPage = none → q.job = st.job ∧ q.page = st.page) ∧
            (∃ new, q.lines = (st.openPage.map Page.lines).getD [] ++ new ∧
              new.length ≤ (if st.hasStrikes then 1 else 0) ∧ ∀ x ∈ new, x.line = st.line) ∧
            u.counters.listings = (commit tools ⟨st, false, false⟩).st.counters.listings ∧
            noted = w.noted ∧ u.record = w.st.record ∧ u.holds = w.st.holds ∧ u.causes = w.st.causes ∧
            u.stopCode = w.st.stopCode ∧ (u.state = .stopped ↔ w.st.state = .stopped)) ∧
        (page = false → noted = false ∧ u.record = st.record ∧
          u.causes = (if st.queue = [] then { st.causes with drained := true } else st.causes)) ∧
        (noted = false ∨ (∀ k : Fin 16, s.library.dispositions[k] ≠ .hold ∧ s.library.dispositions[k] ≠ .stop) →
          u.state ≠ .stopped ∧ u.holds = st.holds) ∧
        (u.state = .stopped ∧ noted = true ∧ page = true ∧ u.causes.stopped = true ∧
            (u.stopCode = .conditionStop ∨ u.stopCode = .secondCondition) ∨
          u.queue ≠ [] ∧ u.state = .draining ∧ u.stopCode = st.stopCode ∨
          u.queue = [] ∧ u.causes.drained = true ∧ u.stopCode = st.stopCode ∧
            u.state = (if u.holds.isEmpty then .ready else .held)))

/-- PARK moves the station's context into an empty park slot and leaves the station UNLOADED with starting values and its quota,
holds, condition record, reports and queue (R15, R16). RESUME moves a record to a station that composes nothing, at the parked
line or at line 1, gives up the station's own references and empties the slot (R17). Each is refused at the first check that
fails: a slot number or option byte out of range BAD FIELD, the state WRONG STATE, a page or strikes OPEN PAGE, the slot NO PARK
SLOT or SLOT EMPTY (R6, R16, R17, R181). -/
def Obligations.ParkAndResumeMoveTheContext : Prop :=
  (∀ (s : State) (h : Head) (k : Fin 4) (b c d : Byte), s.accepts h →
    let st := s.station h.station
    st.state = .ready → st.openPage = none → st.hasStrikes = false → s.parks[k] = none →
    exec (.stationPark h [byteOf k.val, b, c, d]) s = .next (({ s.setStation h.station
        { st with
          state := .unloaded, sel := ⟨none, none, none, none⟩, line := 1, overflow := false, job := 0, page := 1,
          expected := false, counters := ⟨0, 0, 0, 0⟩, carry := none, timerSetting := 0, idle := .off,
          matchValue := 0, strikes := emptyLine } with
      parks := s.parks.set k (some ⟨st.job, st.page, st.line, st.sel, st.carry, st.counters, st.matchValue,
        st.timerSetting⟩) }).owe (leadOf h 0x09) .done)) ∧
  (∀ (s : State) (h : Head) (k : Fin 4) (r : ParkRecord) (t : Tape) (e : Fin 8) (top : Bool) (c d : Byte), s.accepts h →
    let st := s.station h.station
    st.state = .unloaded ∨ st.state = .ready → st.openPage = none → st.hasStrikes = false → s.parks[k] = some r →
    r.sel.tape = some e → s.library.tapes[e] = some t →
    ∃ u lib, exec (.stationResume h [byteOf k.val, byteOf top.toNat, c, d]) s = .next (({ s.setStation h.station u with
        parks := s.parks.set k none, library := lib }).owe (leadOf h 0x09) .done) ∧
      u = { st with
        state := if st.holds.isEmpty then .ready else .held
        sel := r.sel, line := if top = true ∨ t.formLength < r.line then 1 else r.line, overflow := false,
        job := r.job, page := r.page, expected := false, counters := r.counters, carry := r.carry,
        timerSetting := r.timerSetting, idle := .off, matchValue := r.matchValue, strikes := emptyLine } ∧
      lib = { s.library with refs := lib.refs } ∧
      (∀ x : Fin 8,
        lib.refs.drum[x] = s.library.refs.drum[x] - (if st.sel.drum = some x then 1 else 0) ∧
        lib.refs.tape[x] = s.library.refs.tape[x] - (if st.sel.tape = some x then 1 else 0) ∧
        lib.refs.layout[x] = s.library.refs.layout[x] - (if st.sel.layout = some x then 1 else 0)) ∧
      (∀ x : Fin 4, lib.refs.coll[x] = s.library.refs.coll[x] - (if st.sel.coll = some x then 1 else 0))) ∧
  (∀ (s : State) (h : Head) (a b c d : Byte), s.accepts h →
    let st := s.station h.station
    let refusedWith (r : Reason) : Host.Outcome State Fault Refusal := .next (s.owe (leadOf h 0x09) (.refused r))
    (4 ≤ a.toNat → exec (.stationPark h [a, b, c, d]) s = refusedWith .badField) ∧
    (4 ≤ a.toNat ∨ 2 ≤ b.toNat → exec (.stationResume h [a, b, c, d]) s = refusedWith .badField) ∧
    ∀ k : Fin 4,
      let park := exec (.stationPark h [byteOf k.val, b, c, d]) s
      let resume := exec (.stationResume h [byteOf k.val, b, c, d]) s
      (st.state ≠ .ready → park = refusedWith .wrongState) ∧
      (st.state = .ready → st.busy = true → park = refusedWith .openPage) ∧
      (st.state = .ready → st.busy = false → s.parks[k].isSome = true → park = refusedWith .noParkSlot) ∧
      (b.toNat ≤ 1 → st.state ≠ .unloaded → st.state ≠ .ready → resume = refusedWith .wrongState) ∧
      (b.toNat ≤ 1 → st.state = .unloaded ∨ st.state = .ready → st.busy = true → resume = refusedWith .openPage) ∧
      (b.toNat ≤ 1 → st.state = .unloaded ∨ st.state = .ready → st.busy = false → s.parks[k] = none →
        resume = refusedWith .slotEmpty))

/-- SET QUOTA clamps to 1 to 12, SET TIMER writes the setting and applies it at once, SET MATCH writes the match value; each in
every state, and nothing else changes (R18). -/
def Obligations.SettingsAreWritten : Prop :=
  ∀ (s : State) (h : Head) (a b c d : Byte), s.accepts h →
    let st := s.station h.station
    exec (.setQuota h [a, b, c, d]) s = .next ((s.setStation h.station
      { st with quota := if a = 0 then 1 else if 12 < a.toNat then 12 else a.toNat }).owe (leadOf h 0x09) .done) ∧
    exec (.setTimer h [a, b, c, d]) s = .next ((s.setStation h.station
      { st with
        timerSetting := a.toNat
        idle := if a ≠ 0 ∧ st.state = .ready ∧ (st.openPage.isSome = true ∨ st.hasStrikes = true) then .running
          else .off }).owe (leadOf h 0x09) .done) ∧
    exec (.setMatch h [a, b, c, d]) s = .next ((s.setStation h.station
      { st with matchValue := ((a ++ b) ++ (c ++ d) : Word) }).owe (leadOf h 0x09) .done)

/-- SELECT at a station that is not DRAINING and composes nothing, naming VALID entries, replaces the named selections, moves
their references, clears the overflow mark with a new tape and the carry key with a new collation selection, and takes an
UNLOADED station with drum, tape and layout to READY or HELD (R7, R47, R102, R116). Each field is an entry or KEEP, `none`
here; the collation field may also say NONE, `some none`. Otherwise it is refused at the first check that fails: a byte that
names no entry BAD FIELD, DRAINING WRONG STATE, a page or strikes OPEN PAGE, an EMPTY entry EMPTY ENTRY, another tape away from
line 1 NOT AT TOP (R7). -/
def Obligations.SelectReplacesSelections : Prop :=
  (∀ (s : State) (h : Head) (a b c d : Byte), s.accepts h →
    let bad (x : Byte) : Prop := 8 ≤ x.toNat ∧ x ≠ 0xFF
    bad a ∨ bad b ∨ bad c ∨ 4 ≤ d.toNat ∧ d ≠ 0xFE ∧ d ≠ 0xFF →
      exec (.select h [a, b, c, d]) s = .next (s.owe (leadOf h 0x03) (.refused .badField))) ∧
  ∀ (s : State) (h : Head) (d t l : Option (Fin 8)) (c : Option (Option (Fin 4))), s.accepts h →
    let st := s.station h.station
    let field (o : Option (Fin 8)) : Byte := match o with
      | none => 0xFF
      | some e => byteOf e.val
    let collField : Byte := match c with
      | none => 0xFF
      | some none => 0xFE
      | some (some e) => byteOf e.val
    let new : Selections := ⟨d.or st.sel.drum, t.or st.sel.tape, l.or st.sel.layout, c.getD st.sel.coll⟩
    let go := exec (.select h [field d, field t, field l, collField]) s
    let refusedWith (r : Reason) : Host.Outcome State Fault Refusal := .next (s.owe (leadOf h 0x03) (.refused r))
    let empty : Prop := (∃ e, d = some e ∧ s.library.drums[e] = none) ∨ (∃ e, t = some e ∧ s.library.tapes[e] = none) ∨
      (∃ e, l = some e ∧ s.library.layouts[e] = none) ∨ ∃ e, c = some (some e) ∧ s.library.colls[e] = none
    (st.state = .draining → go = refusedWith .wrongState) ∧
    (st.state ≠ .draining → st.busy = true → go = refusedWith .openPage) ∧
    (st.state ≠ .draining → st.busy = false → empty → go = refusedWith .emptyEntry) ∧
    (st.state ≠ .draining → st.busy = false → ¬ empty → new.tape ≠ st.sel.tape → st.line ≠ 1 →
      go = refusedWith .notAtTop) ∧
    (st.state ≠ .draining → st.openPage = none → st.hasStrikes = false →
    (∀ e, d = some e → s.library.drums[e].isSome = true) → (∀ e, t = some e → s.library.tapes[e].isSome = true) →
    (∀ e, l = some e → s.library.layouts[e].isSome = true) →
    (∀ e, c = some (some e) → s.library.colls[e].isSome = true) →
    (new.tape ≠ st.sel.tape → st.line = 1) →
    ∃ lib, go = .next (({ s.setStation h.station
        { st with
          sel := new
          overflow := if new.tape = st.sel.tape then st.overflow else false
          carry := if new.coll = st.sel.coll then st.carry else none
          state := if st.state = StationState.unloaded ∧ new.drum.isSome = true ∧ new.tape.isSome = true ∧ new.layout.isSome = true
            then (if st.holds.isEmpty then .ready else .held) else st.state } with
        library := lib }).owe (leadOf h 0x03) .done) ∧
      lib = { s.library with refs := lib.refs } ∧
      (∀ x : Fin 8,
        lib.refs.drum[x] = (if new.drum = st.sel.drum then s.library.refs.drum[x] else
          s.library.refs.drum[x] - (if st.sel.drum = some x then 1 else 0) + (if new.drum = some x then 1 else 0)) ∧
        lib.refs.tape[x] = (if new.tape = st.sel.tape then s.library.refs.tape[x] else
          s.library.refs.tape[x] - (if st.sel.tape = some x then 1 else 0) + (if new.tape = some x then 1 else 0)) ∧
        lib.refs.layout[x] = (if new.layout = st.sel.layout then s.library.refs.layout[x] else
          s.library.refs.layout[x] - (if st.sel.layout = some x then 1 else 0) +
            (if new.layout = some x then 1 else 0))) ∧
      (∀ x : Fin 4, lib.refs.coll[x] = (if new.coll = st.sel.coll then s.library.refs.coll[x] else
        s.library.refs.coll[x] - (if st.sel.coll = some x then 1 else 0) + (if new.coll = some x then 1 else 0))))

/-! ## The Table Library -/

/-- A LOAD DRUM of valid elements into an entry not in use writes them from the start index upward, those past 255 onto 255 in
turn; a whole load starts from ABSENT entries, an amending one needs a VALID entry. LOAD STUCK is set when more than one
element was written onto 255 (R106 to R108). Otherwise it is refused at the first check that fails: an entry number above 7 or an
element that is none BAD FIELD, an amending load of an EMPTY entry EMPTY ENTRY, an entry in use IN USE. The first clauses give
an element's two bytes: the kind ABSENT 00h, GLYPH 01h, BLANK 02h, UNDERSCORE 03h, SUBSTITUTE 04h, and the glyph code 1 to 250 of
GLYPH and SUBSTITUTE (R107, R180). -/
def Obligations.LoadDrumWritesItsRun : Prop :=
  (∀ g : Byte, drumEntryOf 0x00 g = some .absent ∧ drumEntryOf 0x02 g = some .blank ∧
    drumEntryOf 0x03 g = some .underscore) ∧
  (∀ g : Code, g.val ≠ 0 → drumEntryOf 0x01 (BitVec.ofNat 8 g.val) = some (.glyph g) ∧
    drumEntryOf 0x04 (BitVec.ofNat 8 g.val) = some (.substitute g)) ∧
  (∀ k g : Byte, 5 ≤ k.toNat ∨ (k = 0x01 ∨ k = 0x04) ∧ (g = 0 ∨ 251 ≤ g.toNat) → drumEntryOf k g = none) ∧
  (∀ (s : State) (h : Head) (a start : Byte) (pairs : List (Byte × Byte)), s.accepts h → pairs.length ≤ 510 →
    let go := exec (.loadDrum h (a :: start :: pairs.flatMap fun p => [p.1, p.2])) s
    let refusedWith (r : Reason) : Host.Outcome State Fault Refusal := .next (s.owe (leadOf h 0x04) (.refused r))
    let bad (p : Byte × Byte) : Prop :=
      5 ≤ p.1.toNat ∨ (p.1 = 0x01 ∨ p.1 = 0x04) ∧ (p.2 = 0 ∨ 251 ≤ p.2.toNat)
    (8 ≤ a.toNat ∨ (∃ p ∈ pairs, bad p) → go = refusedWith .badField) ∧
    ∀ e : Fin 8, a = byteOf e.val → (∀ p ∈ pairs, ¬ bad p) →
      (start ≠ 0 → s.library.drums[e] = none → go = refusedWith .emptyEntry) ∧
      (start = 0 ∨ s.library.drums[e].isSome = true → s.drumInUse e = true → go = refusedWith .inUse) ∧
      (s.drumInUse e = true ↔ ∃ i, (s.station i).sel.drum = some e ∧ (s.station i).busy = true)) ∧
  ∀ (s : State) (h : Head) (e : Fin 8) (start : Byte) (pairs : List (Byte × Byte)) (els : List DrumEntry),
    s.accepts h → pairs.length ≤ 510 → pairs.map (fun p => drumEntryOf p.1 p.2) = els.map some →
    s.drumInUse e = false → (start ≠ 0 → s.library.drums[e].isSome = true) →
    ∃ table : DrumTable,
      exec (.loadDrum h (byteOf e.val :: start :: pairs.flatMap fun p => [p.1, p.2])) s =
        .next (({ s with library := { s.library with drums := s.library.drums.set e (some table) } }).owe (leadOf h 0x04)
          { Answer.done with loadStuck := decide (256 < start.toNat + els.length) }) ∧
      ∀ i : Fin 256,
        let old : DrumEntry :=
          if start = 0 then .absent else (s.library.drums[e].getD (Vector.replicate 256 .absent))[i]
        table[i] =
          if i.val < start.toNat then old
          else if i.val < 255 then (els[i.val - start.toNat]?).getD old
          else if start.toNat + els.length ≤ 255 then old
          else els.getLast?.getD old

/-- A LOAD TAPE of valid fields and stop sets into an entry not in use writes the sets from its start line upward, those past
F onto F in turn; a whole load starts from empty sets, an amending one needs a VALID entry of the same form. LOAD STUCK is set
when more than one set was written onto F (R106, R109, R110). Otherwise it is refused at the first check that fails: a field or a
stop set out of range BAD FIELD, an amending load of an EMPTY entry EMPTY ENTRY, of another form BAD FIELD, an entry in use
IN USE. -/
def Obligations.LoadTapeWritesItsRun : Prop :=
  (∀ (s : State) (h : Head) (a f p ov start : Byte) (pairs : List (Byte × Byte)), s.accepts h → pairs.length ≤ 509 →
    let go := exec (.loadTape h (a :: f :: p :: ov :: start :: pairs.flatMap fun x => [x.1, x.2])) s
    let refusedWith (r : Reason) : Host.Outcome State Fault Refusal := .next (s.owe (leadOf h 0x05) (.refused r))
    let bad : Prop := f.toNat < 2 ∨ 192 < f.toNat ∨ p ≠ 0x06 ∧ p ≠ 0x08 ∨ ov = 0 ∨ 12 < ov.toNat ∨ start = 0 ∨
      f.toNat < start.toNat ∨ ∃ x ∈ pairs, 16 ≤ x.1.toNat
    let pitch : Pitch := if p = 0x06 then .six else .eight
    (8 ≤ a.toNat ∨ bad → go = refusedWith .badField) ∧
    ∀ e : Fin 8, a = byteOf e.val → ¬ bad →
      (start ≠ 1 → s.library.tapes[e] = none → go = refusedWith .emptyEntry) ∧
      (∀ t, start ≠ 1 → s.library.tapes[e] = some t →
        t.formLength ≠ f.toNat ∨ t.pitch ≠ pitch ∨ t.overflow ≠ ov.toNat → go = refusedWith .badField) ∧
      (start = 1 ∨ (∃ t, s.library.tapes[e] = some t ∧ t.formLength = f.toNat ∧ t.pitch = pitch ∧ t.overflow = ov.toNat) →
        s.tapeInUse e = true → go = refusedWith .inUse) ∧
      (s.tapeInUse e = true ↔ ∃ i, (s.station i).sel.tape = some e ∧
        ((s.station i).busy = true ∨ (s.station i).line ≠ 1))) ∧
  ∀ (s : State) (h : Head) (e : Fin 8) (f ov start : Nat) (pitch : Pitch) (sets : List StopSet),
    s.accepts h → sets.length ≤ 509 → 2 ≤ f → f ≤ 192 → 1 ≤ ov → ov ≤ 12 → 1 ≤ start → start ≤ f →
    s.tapeInUse e = false →
    (start ≠ 1 → ∃ t, s.library.tapes[e] = some t ∧ t.formLength = f ∧ t.pitch = pitch ∧ t.overflow = ov ∧
      t.stops.length = f) →
    let pitchByte : Byte := match pitch with
      | .six => 0x06
      | .eight => 0x08
    ∃ t : Tape,
      exec (.loadTape h (byteOf e.val :: byteOf f :: pitchByte :: byteOf ov :: byteOf start ::
          sets.flatMap fun x => twoBytes x.toNat)) s =
        .next (({ s with library := { s.library with tapes := s.library.tapes.set e (some t) } }).owe (leadOf h 0x05)
          { Answer.done with loadStuck := decide (f + 1 < start + sets.length) }) ∧
      t.formLength = f ∧ t.pitch = pitch ∧ t.overflow = ov ∧ t.stops.length = f ∧
      ∀ n, 1 ≤ n → n ≤ f →
        let old : StopSet := if start = 1 then 0 else ((s.library.tapes[e].map Tape.stops).getD []).getD (n - 1) 0
        t.stops.getD (n - 1) 0 =
          if n < start then old
          else if n < f then (sets[n - start]?).getD old
          else if start + sets.length ≤ f then old
          else sets.getLast?.getD old

/-- LOAD LAYOUT of a layout that meets R69 and R70, and LOAD COLLATION, into entries not in use, replace the entry; LOAD
CONDITIONS of valid codes replaces all sixteen dispositions (R111 to R113). Otherwise they are refused at the first check that
fails: a field out of range, a layout that fails R69 or R70 or a code above 3 BAD FIELD, an entry in use IN USE (R106). The first
clause says what it is to meet R69 and R70: the ranges, source ranges that share no print position, plate spans that do not
overlap; the second gives the windows by their bytes: window w has s_w, c_w, X_w, key offset, key length and the CHECK and GUIDE
bits at bytes 7w to 7w + 6 of the windows part (R180). -/
def Obligations.WholeLoadsReplace : Prop :=
  (∀ l : Layout,
    let spanEnd (w : Window) : Nat := w.outX + rnd ((w.width - 1) * 120 * l.reduction) + rnd (120 * l.reduction)
    l.valid = true ↔
      (1 ≤ l.width ∧ l.width ≤ 24000 ∧ 1 ≤ l.depth ∧ l.depth ≤ 30000 ∧ l.topMargin ≤ 30000 ∧ 40 ≤ l.reduction ∧
        l.reduction ≤ 100 ∧ l.guideRow ≤ l.depth ∧ l.leftGuide ≤ 24000 ∧ l.rightGuide ≤ 24000 ∧
        1 ≤ l.windows.length ∧ l.windows.length ≤ 6) ∧
      (∀ w ∈ l.windows, 1 ≤ w.start ∧ w.start ≤ 132 ∧ 1 ≤ w.width ∧ w.width ≤ 132 ∧ w.start + w.width - 1 ≤ 132 ∧
        w.outX ≤ 24000 ∧ w.keyOffset ≤ w.width - 1 ∧ 1 ≤ w.keyLength ∧ w.keyLength ≤ 24 ∧
        w.keyOffset + w.keyLength ≤ w.width) ∧
      ∀ (i j : Nat) (a b : Window), i < j → l.windows[i]? = some a → l.windows[j]? = some b →
        (∀ n, ¬ (a.start ≤ n ∧ n < a.start + a.width ∧ b.start ≤ n ∧ n < b.start + b.width)) ∧
        ¬ (a.outX < spanEnd b ∧ b.outX < spanEnd a)) ∧
  (∀ (c : Nat) (rest : List Byte), rest.length = 7 * c →
    ((∀ w < c, (byteAt rest (7 * w + 6)).toNat ≤ 3) →
      windowsOf rest = some ((List.range c).map fun w =>
        { start := (byteAt rest (7 * w)).toNat, width := (byteAt rest (7 * w + 1)).toNat
          outX := (halfAt rest (7 * w + 2)).toNat, keyOffset := (byteAt rest (7 * w + 4)).toNat
          keyLength := (byteAt rest (7 * w + 5)).toNat, check := (byteAt rest (7 * w + 6)).getLsbD 0
          guide := (byteAt rest (7 * w + 6)).getLsbD 1 })) ∧
    ((∃ w < c, 4 ≤ (byteAt rest (7 * w + 6)).toNat) → windowsOf rest = none)) ∧
  (∀ (s : State) (h : Head) (e : Fin 8) (w1 w0 d1 d0 t1 t0 r y1 y0 l1 l0 r1 r0 c f : Byte) (rest : List Byte)
      (windows : List Window), s.accepts h → 1 ≤ c.toNat → c.toNat ≤ 6 → rest.length = 7 * c.toNat →
    windowsOf rest = some windows → f = 0x00 ∨ f = 0x01 →
    let layout : Layout :=
      ⟨(be16 w1 w0).toNat, (be16 d1 d0).toNat, (be16 t1 t0).toNat, r.toNat, (be16 y1 y0).toNat, (be16 l1 l0).toNat,
        (be16 r1 r0).toNat, f == 0x01, windows⟩
    let go := exec (.loadLayout h (byteOf e.val :: w1 :: w0 :: d1 :: d0 :: t1 :: t0 :: r :: y1 :: y0 :: l1 :: l0 ::
      r1 :: r0 :: c :: f :: rest)) s
    (layout.valid = true → s.layoutInUse e = false →
      go = .next (({ s with library := { s.library with layouts := s.library.layouts.set e (some layout) } }).owe
        (leadOf h 0x06) .done)) ∧
    (layout.valid = false → go = .next (s.owe (leadOf h 0x06) (.refused .badField))) ∧
    (layout.valid = true → s.layoutInUse e = true → go = .next (s.owe (leadOf h 0x06) (.refused .inUse))) ∧
    (s.layoutInUse e = true ↔ ∃ i, (s.station i).sel.layout = some e ∧ (s.station i).busy = true)) ∧
  (∀ (s : State) (h : Head) (a w1 w0 d1 d0 t1 t0 r y1 y0 l1 l0 r1 r0 c f : Byte) (rest : List Byte), s.accepts h →
    1 ≤ c.toNat → c.toNat ≤ 6 → rest.length = 7 * c.toNat →
    8 ≤ a.toNat ∨ f ≠ 0x00 ∧ f ≠ 0x01 ∨ (∃ j < c.toNat, 4 ≤ (byteAt rest (7 * j + 6)).toNat) →
    exec (.loadLayout h (a :: w1 :: w0 :: d1 :: d0 :: t1 :: t0 :: r :: y1 :: y0 :: l1 :: l0 :: r1 :: r0 :: c :: f :: rest))
      s = .next (s.owe (leadOf h 0x06) (.refused .badField))) ∧
  (∀ (s : State) (h : Head) (e : Fin 4) (weights : List Byte), s.accepts h → weights.length = 251 →
    s.collInUse e = false →
    ∃ table : CollTable,
      exec (.loadCollation h (byteOf e.val :: weights)) s =
        .next (({ s with library := { s.library with colls := s.library.colls.set e (some table) } }).owe
          (leadOf h 0x07) .done) ∧
      ∀ g : Fin 251, weights[g.val]? = some table[g]) ∧
  (∀ (s : State) (h : Head) (a : Byte) (weights : List Byte), s.accepts h → weights.length = 251 →
    (4 ≤ a.toNat →
      exec (.loadCollation h (a :: weights)) s = .next (s.owe (leadOf h 0x07) (.refused .badField))) ∧
    ∀ e : Fin 4, a = byteOf e.val →
      (s.collInUse e = true →
        exec (.loadCollation h (a :: weights)) s = .next (s.owe (leadOf h 0x07) (.refused .inUse))) ∧
      (s.collInUse e = true ↔ ∃ i, (s.station i).sel.coll = some e ∧ (s.station i).busy = true)) ∧
  (∀ (s : State) (h : Head) (data : List Byte), s.accepts h → data.length = 16 → (∃ b ∈ data, 4 ≤ b.toNat) →
    exec (.loadConditions h data) s = .next (s.owe (leadOf h 0x08) (.refused .badField))) ∧
  (∀ (s : State) (h : Head) (data : List Byte), s.accepts h → data.length = 16 → (∀ b ∈ data, b.toNat ≤ 3) →
    ∃ table : Dispositions,
      exec (.loadConditions h data) s =
        .next (({ s with library := { s.library with dispositions := table } }).owe (leadOf h 0x08) .done) ∧
      ∀ k : Fin 16, data[k.val]? = some (match table[k] with
        | .ignore => (0x00 : Byte)
        | .note => 0x01
        | .hold => 0x02
        | .stop => 0x03))

/-- LIBRARY CLEAR empties an entry whose reference count is 0, is refused IN USE otherwise, and BAD FIELD for an entry outside
its kind or a kind that is none of the four (R117). -/
def Obligations.LibraryClearEmpties : Prop :=
  ∀ (s : State) (h : Head), s.accepts h →
    (∀ e : Fin 8, exec (.libraryClear h [0x00, byteOf e.val]) s =
      if s.library.refs.drum[e] = 0 then
        .next (({ s with library := { s.library with drums := s.library.drums.set e none } }).owe (leadOf h 0x0C) .done)
      else .next (s.owe (leadOf h 0x0C) (.refused .inUse))) ∧
    (∀ e : Fin 8, exec (.libraryClear h [0x01, byteOf e.val]) s =
      if s.library.refs.tape[e] = 0 then
        .next (({ s with library := { s.library with tapes := s.library.tapes.set e none } }).owe (leadOf h 0x0C) .done)
      else .next (s.owe (leadOf h 0x0C) (.refused .inUse))) ∧
    (∀ e : Fin 8, exec (.libraryClear h [0x02, byteOf e.val]) s =
      if s.library.refs.layout[e] = 0 then
        .next (({ s with library := { s.library with layouts := s.library.layouts.set e none } }).owe (leadOf h 0x0C)
          .done)
      else .next (s.owe (leadOf h 0x0C) (.refused .inUse))) ∧
    (∀ e : Fin 4, exec (.libraryClear h [0x03, byteOf e.val]) s =
      if s.library.refs.coll[e] = 0 then
        .next (({ s with library := { s.library with colls := s.library.colls.set e none } }).owe (leadOf h 0x0C) .done)
      else .next (s.owe (leadOf h 0x0C) (.refused .inUse))) ∧
    (∀ kind e : Byte, 4 ≤ kind.toNat ∨ 8 ≤ e.toNat ∨ kind = 0x03 ∧ 4 ≤ e.toNat →
      exec (.libraryClear h [kind, e]) s = .next (s.owe (leadOf h 0x0C) (.refused .badField)))

/-- Law of R116: an entry is never changed while it is in use, whatever command but power-on comes, where the reference counts
are those of the holders. -/
def Obligations.UsedEntriesNeverChange : Prop :=
  ∀ (s t : State) (c : Instr), s.refsAgree = true → c ≠ .powerOn → exec c s = .next t →
    (∀ e : Fin 8, s.drumInUse e = true → t.library.drums[e] = s.library.drums[e]) ∧
    (∀ e : Fin 8, s.tapeInUse e = true → t.library.tapes[e] = s.library.tapes[e]) ∧
    (∀ e : Fin 8, s.layoutInUse e = true → t.library.layouts[e] = s.library.layouts[e]) ∧
    (∀ e : Fin 4, s.collInUse e = true → t.library.colls[e] = s.library.colls[e])

/-! ## Reading orders and device orders -/

/-- SENSE answers with the 98 bytes of R182 as everything stands, then clears the causes its mask names, for the addressed
station and the device, and under bit 7 the station's condition counts (R133, R173). REPORT removes and returns the oldest
summaries, 61 bytes each, as many as its count of 1 to 8 or the list has (R25). ECHO returns its data (R174). The second clause
gives every byte of the SENSE reply and the fourth every byte of a summary, by the offsets of R182; byte 9 is said where a page is
open (log entry 21 for the byte without one). A number too large for its field, which no run has, is given modulo the field, the
model's choice (log entry 18). -/
def Obligations.ReadingOrdersReply : Prop :=
  (∀ (s : State) (h : Head) (mask : Byte), s.accepts h →
    let st := s.station h.station
    let keep (k : Nat) (b : Bool) : Bool := b && !mask.getLsbD k
    exec (.sense h [mask]) s = .next (({ s.setStation h.station
        { st with
          causes := ⟨keep 0 st.causes.conditionNoted, keep 1 st.causes.stopped, keep 2 st.causes.countReached,
            keep 3 st.causes.drained, keep 4 st.causes.reportAdded⟩
          record := { st.record with
            counts := (if mask.getLsbD 7 = true then Vector.replicate 16 0 else st.record.counts) } } with
        link := { s.link with causes := ⟨keep 5 s.link.causes.imagerChange, keep 6 s.link.causes.panelChange⟩ } }).owe
      (leadOf h 0x0A) { Answer.done with reply := s.senseReply h.station })) ∧
  (∀ (s : State) (i : StationId),
    let st := s.station i
    let reply := s.senseReply i
    let number (o : Option Nat) : Byte := o.elim 0xFE (BitVec.ofNat 8)
    let entryAt (k : Nat) (o : Option CondEntry) : Prop := match o with
      | none => byteAt reply k = 0xFF ∧ ∀ j, 1 ≤ j → j ≤ 5 → byteAt reply (k + j) = 0x00
      | some e => byteAt reply k = BitVec.ofNat 8 e.kind.number.val ∧ halfAt reply (k + 1) = e.page ∧
          byteAt reply (k + 3) = BitVec.ofNat 8 e.line ∧
          byteAt reply (k + 4) = e.position.elim 0x00 (BitVec.ofNat 8) ∧
          byteAt reply (k + 5) = e.column.elim 0xFF (BitVec.ofNat 8)
    let slots (x : SlotState) : Byte := BitVec.ofNat 8 (st.queue.countP fun p => p.state == x)
    let levels := s.port.debounced
    let on := s.link.enable
    reply.length = 98 ∧
    byteAt reply 0 = (match st.state with
      | .unloaded => 0x00
      | .ready => 0x01
      | .held => 0x02
      | .stopped => 0x03
      | .draining => 0x04) ∧
    bitsAt reply 1 = [st.holds.order, st.holds.condition, st.holds.panel, false, false, false, false, false] ∧
    byteAt reply 2 = (match st.stopCode with
      | .none => 0x00
      | .operator => 0x01
      | .conditionStop => 0x02
      | .secondCondition => 0x03) ∧
    byteAt reply 3 = number (st.sel.drum.map Fin.val) ∧ byteAt reply 4 = number (st.sel.tape.map Fin.val) ∧
    byteAt reply 5 = number (st.sel.layout.map Fin.val) ∧ byteAt reply 6 = number (st.sel.coll.map Fin.val) ∧
    byteAt reply 7 = BitVec.ofNat 8 st.line ∧
    bitsAt reply 8 = [st.overflow, st.expected, st.carry.isSome, st.hasStrikes, st.openPage.isSome, false, false, false] ∧
    (∀ p, st.openPage = some p → byteAt reply 9 = BitVec.ofNat 8 p.lines.length) ∧
    halfAt reply 10 = st.page ∧ halfAt reply 12 = st.job ∧
    wordAt reply 14 = st.counters.lines ∧ wordAt reply 18 = st.counters.listings ∧
    wordAt reply 22 = st.counters.closed ∧ wordAt reply 26 = st.counters.imaged ∧
    byteAt reply 30 = BitVec.ofNat 8 st.quota ∧ byteAt reply 31 = BitVec.ofNat 8 st.timerSetting ∧
    byteAt reply 32 = (match st.idle with
      | .off => 0x00
      | .running => 0x01
      | .expired => 0x02) ∧
    wordAt reply 33 = st.matchValue ∧ entryAt 37 st.record.first ∧ entryAt 43 st.record.last ∧
    (∀ k : Fin 16, halfAt reply (49 + 2 * k.val) = BitVec.ofNat 16 st.record.counts[k]) ∧
    byteAt reply 81 = (if st.openPage.isSome then 0x01 else 0x00) ∧ byteAt reply 82 = slots .waiting ∧
    byteAt reply 83 = slots .sending ∧ byteAt reply 84 = slots .awaiting ∧ byteAt reply 85 = slots .spoiled ∧
    bitsAt reply 86 = [s.parks[0].isSome, s.parks[1].isSome, s.parks[2].isSome, s.parks[3].isSome, false, false, false,
      false] ∧
    byteAt reply 87 = (match s.port.state with
      | .offline => 0x00
      | .idle => 0x01
      | .sending => 0x02
      | .awaitingTaken => 0x03
      | .imaging => 0x04
      | .faulted => 0x05) ∧
    halfAt reply 88 = BitVec.ofNat 16 s.port.stray ∧
    bitsAt reply 90 = [levels.ready, levels.mediaLow, levels.cover, levels.fault, levels.hold, false, false, false] ∧
    bitsAt reply 91 = [on.conditionNoted, on.stopped, on.countReached, on.drained, on.reportAdded, on.imagerChange,
      on.panelChange, false] ∧
    byteAt reply 92 = (if s.link.activeHigh then 0x01 else 0x00) ∧
    (∀ j : StationId, let c := (s.station j).causes
      bitsAt reply (93 + j.val) = [c.conditionNoted, c.stopped, c.countReached, c.drained, c.reportAdded, false, false,
        false]) ∧
    bitsAt reply 97 = [false, false, false, false, false, s.link.causes.imagerChange, s.link.causes.panelChange, false]) ∧
  (∀ (s : State) (h : Head) (n : Byte), s.accepts h →
    let st := s.station h.station
    (1 ≤ n.toNat → n.toNat ≤ 8 →
      exec (.report h [n]) s = .next ((s.setStation h.station { st with reports := st.reports.drop n.toNat }).owe
        (leadOf h 0x0B) { Answer.done with reply := (st.reports.take n.toNat).flatMap Summary.bytes })) ∧
    (n = 0 ∨ 8 < n.toNat → exec (.report h [n]) s = .next (s.owe (leadOf h 0x0B) (.refused .badField)))) ∧
  (∀ x : Summary,
    let b := x.bytes
    let guideAt (k : Nat) (g : Option Text) : Prop :=
      byteAt b k = BitVec.ofNat 8 (g.getD []).length ∧
      ∀ j < 24, byteAt b (k + 1 + j) = ((g.getD [])[j]?).elim 0x00 fun c => BitVec.ofNat 8 c.val
    b.length = 61 ∧ halfAt b 0 = x.job ∧ halfAt b 2 = x.page ∧ byteAt b 4 = BitVec.ofNat 8 x.lines ∧
    byteAt b 5 = BitVec.ofNat 8 x.listings ∧ halfAt b 6 = BitVec.ofNat 16 x.orderBreaks ∧
    byteAt b 8 = BitVec.ofNat 8 x.seamBreaks ∧ byteAt b 9 = BitVec.ofNat 8 x.spoils ∧
    bitsAt b 10 = [x.blank, x.clipped, x.refused, x.endJob, false, false, false, false] ∧
    guideAt 11 x.firstGuide ∧ guideAt 36 x.lastGuide) ∧
  (∀ (s : State) (h : Head) (data : List Byte), s.accepts h → data.length ≤ 1023 →
    exec (.echo h data) s = .next (s.owe (leadOf h 0x0D) { Answer.done with reply := data }))

/-- ATTENTION SETUP replaces the enable set and the polarity together and is answered DONE under the new set; the causes stay;
a bad code refuses the whole order and the old setup stands (R176). ATTENTION PENDING is bit 7 of the summary flags. -/
def Obligations.AttentionSetupReplaces : Prop :=
  ∀ (s : State) (h : Head) (e p : Byte), s.accepts h →
    (e.getLsbD 7 = false → p = 0x00 ∨ p = 0x01 →
      ∃ t : State,
        exec (.attentionSetup h [e, p]) s = .next (t.owe (leadOf h 0x0C) .done) ∧
        t = { s with link := { s.link with
          enable := ⟨e.getLsbD 0, e.getLsbD 1, e.getLsbD 2, e.getLsbD 3, e.getLsbD 4, e.getLsbD 5, e.getLsbD 6⟩
          activeHigh := p == 0x01 } } ∧
        (t.summaryFlags h.station .done).getLsbD 7 = t.attentionPending ∧
        t.attentionLevel = (if t.attentionPending then p == 0x01 else !(p == 0x01)) ∧
        (t.attentionPending = true ↔
          (∃ i, let c := (s.station i).causes
            c.conditionNoted = true ∧ e.getLsbD 0 = true ∨ c.stopped = true ∧ e.getLsbD 1 = true ∨
            c.countReached = true ∧ e.getLsbD 2 = true ∨ c.drained = true ∧ e.getLsbD 3 = true ∨
            c.reportAdded = true ∧ e.getLsbD 4 = true) ∨
          s.link.causes.imagerChange = true ∧ e.getLsbD 5 = true ∨
          s.link.causes.panelChange = true ∧ e.getLsbD 6 = true)) ∧
    (e.getLsbD 7 = true ∨ p ≠ 0x00 ∧ p ≠ 0x01 →
      exec (.attentionSetup h [e, p]) s = .next (s.owe (leadOf h 0x0C) (.refused .badField)))

/-- IMAGER SETUP of valid codes and a timer setting of 1 to 600 replaces all eleven settings; a line whose debounce is then off
takes its raw level at once, with all that a debounced change of it does to the port and the stations (R153, R154,
`Obligations.LinesTakeLevels`), and the others keep their levels; a running imaging timer keeps its setting. A setting of 0 or
above 600, or another code, refuses the whole order (R151, R164). That the changes come after the setup, in the order of its
fields, is deduced (log entry 10). The first clause gives the codes: off, 2, 20 and 200 ms, and none, rise, fall and both, 00h
to 03h (R180). -/
def Obligations.ImagerSetupReplaces : Prop :=
  (debounceOf 0x00 = some .off ∧ debounceOf 0x01 = some .ms2 ∧ debounceOf 0x02 = some .ms20 ∧
    debounceOf 0x03 = some .ms200 ∧ edgeOf 0x00 = some .none ∧ edgeOf 0x01 = some .rise ∧ edgeOf 0x02 = some .fall ∧
    edgeOf 0x03 = some .both ∧ ∀ b : Byte, 4 ≤ b.toNat → debounceOf b = none ∧ edgeOf b = none) ∧
  ∀ (s : State) (h : Head) (d0 d1 d2 d3 d4 e0 e1 e2 e3 e4 t1 t0 : Byte), s.accepts h →
    let data := [d0, d1, d2, d3, d4, e0, e1, e2, e3, e4, t1, t0]
    let codes := ∀ b ∈ [d0, d1, d2, d3, d4, e0, e1, e2, e3, e4], b.toNat ≤ 3
    let seconds := (be16 t1 t0).toNat
    (codes → 1 ≤ seconds → seconds ≤ 600 →
      ∃ (t : State) (x : ImagerSetup),
        exec (.imagerSetup h data) s = .next (t.owe (leadOf h 0x0C) .done) ∧ t.port.setup = x ∧
        x.imaging = seconds ∧
        [x.debounce.ready, x.debounce.mediaLow, x.debounce.cover, x.debounce.fault, x.debounce.hold].map some =
          [d0, d1, d2, d3, d4].map debounceOf ∧
        [x.edges.ready, x.edges.mediaLow, x.edges.cover, x.edges.fault, x.edges.hold].map some =
          [e0, e1, e2, e3, e4].map edgeOf ∧
        t.port.raw = s.port.raw ∧
        t = [Line.ready, .mediaLow, .cover, .fault, .hold].foldl (fun u l =>
          if x.debounce.get l = .off ∧ u.port.debounced.get l ≠ s.port.raw.get l then u.setDebounced l (s.port.raw.get l)
          else u) { s with port := { s.port with setup := x } } ∧
        (∀ l, t.port.debounced.get l = if x.debounce.get l = .off then s.port.raw.get l else s.port.debounced.get l) ∧
        (t.port.imagingTimer = s.port.imagingTimer ∨ t.port.imagingTimer = none) ∧
        t.library = s.library ∧ t.parks = s.parks ∧ t.pointer = s.pointer ∧
        ((∀ l, x.debounce.get l = .off → s.port.raw.get l = s.port.debounced.get l) →
          t = { s with port := { s.port with setup := x } })) ∧
    (¬ codes ∨ seconds = 0 ∨ 600 < seconds →
      exec (.imagerSetup h data) s = .next (s.owe (leadOf h 0x0C) (.refused .badField)))

/-- DEVICE CLEAR resets all four stations and frees all their slots, empties the park slots and releases their references, sets
the pointer to 3 and forgets the page in flight, with a PAGE VOID due for it from SENDING; tables, dispositions, attention,
lines, stray count and setup are kept (R27, R116, R148, R156, R165, R174).
That a station without selections stays UNLOADED under PANEL, and that a PAGE VOID already due stays due, is deduced (log entries
15 and 6). That in SENDING the record in progress counts as ended, so that PAGE VOID alone is still to go out, is the model's
choice (log entry 20). -/
def Obligations.DeviceClearClears : Prop :=
  ∀ (s : State) (h : Head), s.accepts h →
    ∃ t : State, exec (.deviceClear h []) s = .next (t.owe (leadOf h 0x0C) .done) ∧
      (∀ i, let st := s.station i
        t.station i = { st with
          state := (if st.sel.drum.isSome = true ∧ st.sel.tape.isSome = true ∧ st.sel.layout.isSome = true then
            (if s.port.debounced.hold = true then .held else .ready) else .unloaded),
          holds := ⟨false, false, s.port.debounced.hold⟩, stopCode := .none, line := 1, overflow := false, job := 0,
          page := 1, expected := false, counters := ⟨0, 0, 0, 0⟩, carry := none, idle := .off, reports := [],
          strikes := emptyLine, record := ⟨none, none, Vector.replicate 16 0⟩, openPage := none, queue := [] }) ∧
      (∀ k : Fin 4, t.parks[k] = none) ∧
      t.library = { s.library with refs := t.library.refs } ∧
      (∀ e : Fin 8,
        t.library.refs.drum[e] = s.library.refs.drum[e] -
          s.parks.toList.countP (fun p => p.any fun r => r.sel.drum == some e) ∧
        t.library.refs.tape[e] = s.library.refs.tape[e] -
          s.parks.toList.countP (fun p => p.any fun r => r.sel.tape == some e) ∧
        t.library.refs.layout[e] = s.library.refs.layout[e] -
          s.parks.toList.countP (fun p => p.any fun r => r.sel.layout == some e)) ∧
      (∀ e : Fin 4, t.library.refs.coll[e] = s.library.refs.coll[e] -
        s.parks.toList.countP (fun p => p.any fun r => r.sel.coll == some e)) ∧
      t.pointer = 3 ∧ t.link = s.link ∧ t.pending = s.pending ∧
      (s.port.state = .awaitingTaken ∨ s.port.state = .imaging → t.port = { s.port with
        state := .idle, flight := none, replyTimer := false, imagingTimer := none, outgoing := [] }) ∧
      (∀ i p rest, s.port.state = .sending → s.port.flight = some i → (s.station i).queue = p :: rest →
        t.port = { s.port with flight := none, outgoing := [p.voidRecord i] }) ∧
      (s.port.state ≠ .awaitingTaken → s.port.state ≠ .imaging → s.port.flight = none → t.port = s.port)

/-! ## Conditions and the idle timer -/

/-- What raising a condition does, by the station's state, the disposition and the CONDITION cause (R120 to R128 and the table of
section 7.3): the count always; under NOTE, HOLD and STOP at a station that is not STOPPED the entries and CONDITION NOTED;
under HOLD the cause or SECOND CONDITION; under STOP CONDITION STOP. Nothing else of the station changes. -/
def Obligations.RaisingFollowsDisposition : Prop :=
  ∀ (table : Dispositions) (e : CondEntry) (st : Station),
    let k := e.kind.number
    let counts := st.record.counts.set k (min 65535 (st.record.counts[k] + 1))
    let counted : Station := { st with record := { st.record with counts := counts } }
    let noted : Station := { st with
      record := { first := some (st.record.first.getD e), last := some e, counts := counts }
      causes := { st.causes with conditionNoted := true } }
    let stopped (c : StopCode) : Station := { noted with
      state := .stopped, stopCode := c, idle := .off, causes := { noted.causes with stopped := true } }
    (st.state = .stopped ∨ table[k] = .ignore → st.raise table e = counted) ∧
    (st.state ≠ .stopped → table[k] = .note → st.raise table e = noted) ∧
    (st.state ≠ .stopped → table[k] = .stop → st.raise table e = stopped .conditionStop) ∧
    (st.state ≠ .stopped → table[k] = .hold → st.holds.condition = true →
      st.raise table e = stopped .secondCondition) ∧
    (st.state = .ready → table[k] = .hold → st.holds.condition = false →
      st.raise table e = { noted with holds := { st.holds with condition := true }, state := .held, idle := .off }) ∧
    (st.state ≠ .ready → st.state ≠ .stopped → table[k] = .hold → st.holds.condition = false →
      st.raise table e = { noted with holds := { st.holds with condition := true } })

/-- A running idle timer that expires goes to expired and STALE PAGE is raised with the station's page and line (R22, R122); a
timer that is off or expired does nothing, which is the model's choice (log entry 5). Said where no choice of the arbiter is
due (R141). -/
def Obligations.IdleExpiryRaisesStalePage : Prop :=
  ∀ (s : State) (i : StationId), s.choiceDue = false →
    let st := s.station i
    (st.idle = .running → exec (.idleTimerExpiry i) s = .next (s.setStation i
      (Station.raise s.library.dispositions ⟨.stalePage, st.page, st.line, none, none⟩ { st with idle := .expired }))) ∧
    (st.idle ≠ .running → exec (.idleTimerExpiry i) s = .next s)

/-! ## Lines and the HOLD switch -/

/-- A raw change moves the debounced level at once with the debounce setting off and not otherwise (R151), and then does all
that the debounced command of that change does to the port and the stations (R153, R154, R161); COVER and MEDIA LOW changes write
the level and raise IMAGER CHANGE on a selected edge, and do nothing to the port (R152, R154). A debounced command for the level
that stands already is no event: the model's choice (log entry 5). That a debounced command writes the raw level too is deduced
(log entry 9). The other clauses are said where no choice of the arbiter is due (R141). The last two say what `State.setDebounced`
is, by which `Obligations.ImagerSetupReplaces` speaks of changes that come within one order: what the debounced command does,
and for an IDLE port, where a choice may be due, the change alone. -/
def Obligations.LinesTakeLevels : Prop :=
  let command (l : Line) (b : Bool) : Instr := match l, b with
    | .ready, false => .debouncedReadyFall
    | .ready, true => .debouncedReadyRise
    | .fault, false => .debouncedFaultFall
    | .fault, true => .debouncedFaultRise
    | .cover, b => .debouncedCoverChange b
    | .mediaLow, b => .debouncedMediaLowChange b
    | .hold, false => .holdSwitchOff
    | .hold, true => .holdSwitchOn
  (∀ (s : State) (l : Line) (b : Bool), s.choiceDue = false → s.port.setup.debounce.get l ≠ .off →
    exec (.rawLevelChange l b) s = .next { s with port := { s.port with raw := s.port.raw.put l b } }) ∧
  (∀ (s : State) (l : Line) (b : Bool), s.choiceDue = false → s.port.setup.debounce.get l = .off →
    ∃ t, exec (.rawLevelChange l b) s = .next t ∧ t.port.raw = s.port.raw.put l b ∧
      t.port.debounced = s.port.debounced.put l b ∧
      (s.port.debounced.get l ≠ b → l = .cover ∨ l = .mediaLow → t = s.lineAt l b)) ∧
  (∀ (s : State) (b : Bool), s.choiceDue = false →
    exec (.debouncedCoverChange b) s = .next (if s.port.debounced.cover = b then s else s.lineAt .cover b) ∧
    exec (.debouncedMediaLowChange b) s = .next (if s.port.debounced.mediaLow = b then s else s.lineAt .mediaLow b)) ∧
  (∀ (s : State) (l : Line) (b : Bool), s.port.setup.debounce.get l = .off → s.port.debounced.get l ≠ b →
    exec (.rawLevelChange l b) s = exec (command l b) s) ∧
  (∀ (s : State) (l : Line) (b : Bool), s.port.debounced.get l ≠ b → s.port.raw.get l = b → s.choiceDue = false →
    exec (command l b) s = .next (s.setDebounced l b)) ∧
  (∀ (s : State) (l : Line) (b : Bool), s.port.debounced.get l ≠ b → s.port.raw.get l = b → s.port.state = .idle →
    let t := s.setDebounced l b
    t.port = { (s.lineAt l b).port with
      state := if l = .ready ∧ b = false then .offline else if l = .fault ∧ b = true then .faulted else .idle } ∧
    t.link = (s.lineAt l b).link ∧ t.parks = s.parks ∧ t.library = s.library ∧ t.pointer = s.pointer ∧
    t.pending = s.pending ∧ ∀ i, t.station i = if l = .hold then (s.station i).panel b else s.station i)

/-- READY and FAULT move the port as the table of R154 gives, and spoil a page in flight (R161, R162). In SENDING with PAGE VOID
due the port stays (log entry 6).
That they write the raw level too is deduced (log entry 9). That a spoil in SENDING leaves no record going out, where R161 lets the
record being sent end, is the model's choice (log entry 16). Said where no choice of the arbiter is due (R141). The last clauses:
where the reply just taken made a choice due, a fall of READY or a rise of FAULT that follows it falls together with it and finds
the port IDLE with no page to spoil (R161; that no choice is made between them is deduced, log entry 23). -/
def Obligations.ReadyAndFaultMoveThePort : Prop :=
  (∀ s : State, s.choiceDue = false →
    let flying (i : StationId) (p : Page) (rest : List Page) : Prop :=
      (s.port.state = .sending ∨ s.port.state = .awaitingTaken ∨ s.port.state = .imaging) ∧
      s.port.flight = some i ∧ (s.station i).queue = p :: rest
    (s.port.debounced.ready = true →
      (s.port.state = .offline → exec .debouncedReadyFall s = .next (s.lineAt .ready false)) ∧
      (s.port.state = .idle ∨ s.port.state = .faulted → exec .debouncedReadyFall s =
        .next { s.lineAt .ready false with port := { (s.lineAt .ready false).port with state := .offline } }) ∧
      (s.port.state = .sending → s.port.flight = none → exec .debouncedReadyFall s = .next (s.lineAt .ready false)) ∧
      (∀ i p rest, flying i p rest → exec .debouncedReadyFall s =
        .next (((s.lineAt .ready false).setStation i (s.spoiledOwner i false p rest)).portAt .offline))) ∧
    (s.port.debounced.ready = false →
      (s.port.state = .offline → exec .debouncedReadyRise s =
        .next { s.lineAt .ready true with port := { (s.lineAt .ready true).port with
          state := if s.port.debounced.fault then .faulted else .idle } }) ∧
      (s.port.state ≠ .offline → exec .debouncedReadyRise s = .next (s.lineAt .ready true))) ∧
    (s.port.debounced.fault = false →
      (s.port.state = .offline → exec .debouncedFaultRise s = .next (s.lineAt .fault true)) ∧
      (s.port.state = .idle → exec .debouncedFaultRise s =
        .next { s.lineAt .fault true with port := { (s.lineAt .fault true).port with state := .faulted } }) ∧
      (s.port.state = .sending → s.port.flight = none → exec .debouncedFaultRise s = .next (s.lineAt .fault true)) ∧
      (∀ i p rest, flying i p rest → exec .debouncedFaultRise s =
        .next (((s.lineAt .fault true).setStation i (s.spoiledOwner i false p rest)).portAt .faulted))) ∧
    (s.port.debounced.fault = true →
      (s.port.state = .faulted → exec .debouncedFaultFall s =
        .next { s.lineAt .fault false with port := { (s.lineAt .fault false).port with state := .idle } }) ∧
      (s.port.state ≠ .faulted → exec .debouncedFaultFall s = .next (s.lineAt .fault false)))) ∧
  (∀ s : State, s.choiceDue = true → s.port.returned = true →
    exec .debouncedReadyFall s = .next { s.lineAt .ready false with port := { (s.lineAt .ready false).port with
      state := .offline, returned := false } } ∧
    (s.port.debounced.fault = false →
      exec .debouncedFaultRise s = .next { s.lineAt .fault true with port := { (s.lineAt .fault true).port with
        state := .faulted, returned := false } }))

/-- The HOLD switch turning on adds PANEL to all four stations, a READY one going to HELD with its idle timer off; turning off
removes it, a HELD station without another cause going to READY, its idle timer starting if the running condition then holds
(R2, R3, R21, R153). PANEL CHANGE is raised on a selected edge (R152).
That the switch's raw level is written too is deduced (log entry 9). Said where no choice of the arbiter is due (R141). -/
def Obligations.HoldSwitchHoldsStations : Prop :=
  (∀ s : State, s.choiceDue = false → s.port.debounced.hold = false →
    ∃ t, exec .holdSwitchOn s = .next t ∧ t.parks = s.parks ∧ t.library = s.library ∧ t.pointer = s.pointer ∧
      t.port = (s.lineAt .hold true).port ∧ t.link = (s.lineAt .hold true).link ∧
      ∀ i, let st := s.station i
        t.station i = st.panel true ∧
        t.station i = if st.state = .ready
          then { st with holds := { st.holds with panel := true }, state := .held, idle := .off }
          else { st with holds := { st.holds with panel := true } }) ∧
  (∀ s : State, s.choiceDue = false → s.port.debounced.hold = true →
    ∃ t, exec .holdSwitchOff s = .next t ∧ t.parks = s.parks ∧ t.library = s.library ∧ t.pointer = s.pointer ∧
      t.port = (s.lineAt .hold false).port ∧ t.link = (s.lineAt .hold false).link ∧
      ∀ i, let st := s.station i
        t.station i = st.panel false ∧
        (st.state ≠ .held ∨ st.holds.order = true ∨ st.holds.condition = true →
          t.station i = { st with holds := { st.holds with panel := false } }) ∧
        (st.state = .held → st.holds.order = false → st.holds.condition = false → st.idle = .off →
          t.station i = { st with
            holds := ⟨false, false, false⟩, state := .ready,
            idle := if st.timerSetting ≠ 0 ∧ st.busy = true then .running else .off }))

/-! ## The arbiter and the imager port -/

/-- The arbiter, with the port IDLE, READY high and COVER low, takes the first station after the pointer whose queue head is
WAITING or SPOILED, moves the pointer to it, and starts sending the head's records; otherwise it changes nothing
(R140, R142, R155). The choice is made at the first moment its conditions hold: every command acts as it would after the choice,
which leaves no further choice due (R141), but for a fall of READY or a rise of FAULT that falls together with the reply just
taken (R161, log entry 23, `Obligations.ReadyAndFaultMoveThePort`). That a choice without its conditions changes nothing, and comes
as a command, is the model's choice (log entries 5 and 11). -/
def Obligations.ArbiterChoosesInTurn : Prop :=
  ∀ s : State,
    let waits (i : StationId) : Prop := ∃ p rest, (s.station i).queue = p :: rest ∧ (p.state = .waiting ∨ p.state = .spoiled)
    let open_ : Prop := s.port.state = .idle ∧ s.port.debounced.ready = true ∧ s.port.debounced.cover = false
    (s.choiceDue = true ↔ open_ ∧ ∃ i, waits i) ∧
    (¬ open_ ∨ (∀ i, ¬ waits i) → exec .arbiterChoice s = .next s) ∧
    (∀ (d : Fin 4) (p : Page) (rest : List Page), open_ →
      let i : StationId := s.pointer + 1 + d
      (∀ d' : Fin 4, d' < d → ¬ waits (s.pointer + 1 + d')) →
      (s.station i).queue = p :: rest → p.state = .waiting ∨ p.state = .spoiled →
      exec .arbiterChoice s = .next { s.setStation i { s.station i with queue := { p with state := .sending } :: rest } with
        pointer := i
        port := { s.port with state := .sending, flight := some i, outgoing := p.records i, returned := false } }) ∧
    (let loses (c : Instr) : Prop := c = .debouncedReadyFall ∨ c = .debouncedFaultRise ∨
       ∃ l b, c = .rawLevelChange l b ∧ s.port.setup.debounce.get l = .off ∧
         (l = .ready ∧ b = false ∨ l = .fault ∧ b = true)
     exec .arbiterChoice s = .next s.arbitrate ∧ s.arbitrate.choiceDue = false ∧
     ∀ c : Instr, s.port.returned = false ∨ ¬ loses c → exec c s = exec c s.arbitrate)

/-- PAGE CLOSE sent: the slot goes to AWAITING, the port to AWAITING TAKEN with the reply timer running (R142, R156). PAGE VOID
sent: the port goes to IDLE, or to OFFLINE or FAULTED as its lines stand (R156, R165).
The state after PAGE VOID is deduced (log entry 6). -/
def Obligations.SendingEnds : Prop :=
  (∀ (s : State) (i : StationId) (p : Page) (rest : List Page), s.port.state = .sending → s.port.flight = some i →
    (s.station i).queue = p :: rest →
    exec .pageCloseSent s = .next { s.setStation i { s.station i with queue := { p with state := .awaiting } :: rest } with
      port := { s.port with state := .awaitingTaken, replyTimer := true, outgoing := [] } }) ∧
  (∀ s : State, s.port.state = .sending → s.port.flight = none →
    exec .pageVoidSent s = .next { s with port := { s.port with
      state := if s.port.debounced.ready = false then .offline else if s.port.debounced.fault then .faulted else .idle
      outgoing := [] } })

/-- TAKEN in AWAITING TAKEN starts the imaging timer; a matching IMAGED in IMAGING and a REFUSED in AWAITING TAKEN free the slot
and carry out R144 and R145 with the drain test of R146; a matching SPOILED in IMAGING spoils the page; each leaves the port
as R157 and R158 give. The reply's bytes sum to 0 and the report list is within its 8. The summary holds what R24 gives for an
imaged or refused page. That a reply carries the sum of its bytes is deduced (log entry 14), and so is the mark that a choice is
due by this reply (log entry 23). -/
def Obligations.RepliesReachThePage : Prop :=
  (∀ s : State, s.port.state = .awaitingTaken → exec (.taken 0) s = .next { s with port := { s.port with
    state := .imaging, replyTimer := false, imagingTimer := some s.port.setup.imaging } }) ∧
  (∀ (s : State) (i : StationId) (p : Page) (rest : List Page), s.port.flight = some i → (s.station i).queue = p :: rest →
    (s.station i).reports.length ≤ 8 →
    let st := s.station i
    let drained (x : Station) : Station :=
      if x.state = .draining ∧ x.openPage = none ∧ rest = [] then
        { x with state := (if x.holds.isEmpty then .ready else .held), causes := { x.causes with drained := true } }
      else x
    let back (t : State) : State := { t.portAt .idle with port := { (t.portAt .idle).port with
      returned := (t.portAt .idle).choiceDue } }
    let summary (refused : Bool) : Summary :=
      { job := p.job, page := p.page, lines := p.lines.length, listings := p.listings,
        orderBreaks := (p.columns.map ColumnRecord.breaks).sum, seamBreaks := p.seamBreaks, firstGuide := p.firstGuide,
        lastGuide := p.lastGuide, spoils := p.spoils, blank := false, clipped := p.clipped, refused := refused,
        endJob := p.endJob }
    let reported (refused : Bool) (x : Station) : Station := { x with
      queue := rest
      reports := (if st.reports.length = 8 then st.reports.tail else st.reports) ++ [summary refused]
      causes := { x.causes with reportAdded := true } }
    (s.port.state = .imaging → exec (.imaged (byteOf i.val) p.page 0) s = .next (back (s.setStation i
      (drained (reported false { st with
        counters := { st.counters with imaged := st.counters.imaged + 1 }
        causes := { st.causes with countReached := st.causes.countReached ||
          (st.matchValue != 0 && st.counters.imaged + 1 == st.matchValue) } }))))) ∧
    (s.port.state = .awaitingTaken → ∀ reason : Byte, exec (.refused reason 0) s = .next (back (s.setStation i
      (drained ((reported true st).raise s.library.dispositions ⟨.imagerRefused, p.page, st.line, none, none⟩))))) ∧
    (s.port.state = .imaging → exec (.spoiled (byteOf i.val) p.page 0) s =
      .next (back (s.setStation i (s.spoiledOwner i false p rest)))))

/-- Stray replies change the stray count alone (R163, R184): any reply in OFFLINE, IDLE, SENDING and FAULTED, or of the wrong kind
for the state, or naming another page, or with a wrong check byte; and at the quiet test an unknown type byte or any cut reply. A
whole reply among the quiet test's bytes is that reply, then the test of the bytes after it.
That replies carry the sum of their bytes, and the quiet test the bytes read before it, is deduced (log entry 14). Said where no
choice of the arbiter is due (R141). -/
def Obligations.StrayRepliesAreCounted : Prop :=
  ∀ (s : State) (reason station sum : Byte) (page : Half), s.choiceDue = false →
    let stray : Host.Outcome State Fault Refusal :=
      .next { s with port := { s.port with stray := min 65535 (s.port.stray + 1) } }
    (sum ≠ 0 → exec (.taken sum) s = stray ∧ exec (.refused reason sum) s = stray ∧
      exec (.imaged station page sum) s = stray ∧ exec (.spoiled station page sum) s = stray) ∧
    (s.port.state ≠ .awaitingTaken → exec (.taken 0) s = stray ∧ exec (.refused reason 0) s = stray) ∧
    (s.port.state ≠ .imaging → exec (.imaged station page 0) s = stray ∧ exec (.spoiled station page 0) s = stray) ∧
    (∀ (i : StationId) (p : Page) (rest : List Page), s.port.flight = some i → (s.station i).queue = p :: rest →
      station ≠ byteOf i.val ∨ page ≠ p.page →
      exec (.imaged station page 0) s = stray ∧ exec (.spoiled station page 0) s = stray) ∧
    exec (.imagerLinkQuietTest []) s = .next s ∧
    (∀ (b : Byte) (bytes : List Byte), b ∉ [0x81, 0x82, 0x83, 0x84] →
      exec (.imagerLinkQuietTest (b :: bytes)) s = stray) ∧
    exec (.imagerLinkQuietTest [0x81]) s = stray ∧ exec (.imagerLinkQuietTest [0x82, reason]) s = stray ∧
    exec (.imagerLinkQuietTest [0x83, station, reason]) s = stray ∧ exec (.imagerLinkQuietTest [0x84]) s = stray ∧
    (∀ (b : Byte) (bytes : List Byte),
      b = 0x81 ∧ bytes = [] ∨ b = 0x82 ∧ bytes.length ≤ 1 ∨ (b = 0x83 ∨ b = 0x84) ∧ bytes.length ≤ 3 →
        exec (.imagerLinkQuietTest (b :: bytes)) s = stray) ∧
    (∀ (p1 p0 c : Byte) (rest : List Byte),
      exec (.imagerLinkQuietTest (0x81 :: c :: rest)) s = execAll [.taken (0x81 + c), .imagerLinkQuietTest rest] s ∧
      exec (.imagerLinkQuietTest (0x82 :: reason :: c :: rest)) s =
        execAll [.refused reason (0x82 + reason + c), .imagerLinkQuietTest rest] s ∧
      exec (.imagerLinkQuietTest (0x83 :: station :: p1 :: p0 :: c :: rest)) s =
        execAll [.imaged station (p1 ++ p0) (0x83 + station + p1 + p0 + c), .imagerLinkQuietTest rest] s ∧
      exec (.imagerLinkQuietTest (0x84 :: station :: p1 :: p0 :: c :: rest)) s =
        execAll [.spoiled station (p1 ++ p0) (0x84 + station + p1 + p0 + c), .imagerLinkQuietTest rest] s)

/-- The reply timer's and the imaging timer's expiry spoil the page in flight with IMAGER TIMEOUT and take the port OFFLINE; a
timer that is off does not expire (R160, R162). Said where no choice of the arbiter is due (R141). -/
def Obligations.TimersSpoilThePage : Prop :=
  ∀ s : State, s.choiceDue = false →
    (s.port.replyTimer = false → exec .replyTimerExpiry s = .next s) ∧
    (s.port.imagingTimer = none → exec .imagingTimerExpiry s = .next s) ∧
    (∀ (i : StationId) (p : Page) (rest : List Page), s.port.flight = some i → (s.station i).queue = p :: rest →
      (s.port.state = .awaitingTaken → s.port.replyTimer = true → exec .replyTimerExpiry s =
        .next ((s.setStation i (s.spoiledOwner i true p rest)).portAt .offline)) ∧
      (s.port.state = .imaging → s.port.imagingTimer.isSome = true → exec .imagingTimerExpiry s =
        .next ((s.setStation i (s.spoiledOwner i true p rest)).portAt .offline)))

/-! ## Lines and pages -/

/-- A strike list of at most 3 strikes classifies by its glyphs in arrival order and its underscores (R57). -/
def Obligations.StrikeListsClassify : Prop :=
  ∀ l : List Strike, l.length ≤ 3 →
    let under := decide (Strike.underscore ∈ l)
    let glyphs := l.filterMap fun k => match k with
      | .glyph g => some g
      | .underscore => none
    (glyphs = [] → classify l = ⟨none, none, false, under⟩) ∧
    (∀ x, glyphs = [x] → classify l = ⟨some x, none, false, under⟩) ∧
    (∀ x, glyphs = [x, x] ∨ glyphs = [x, x, x] → classify l = ⟨some x, none, true, under⟩) ∧
    (∀ x y, x ≠ y → glyphs = [x, y] ∨ glyphs = [x, x, y] ∨ glyphs = [x, y, x] ∨ glyphs = [x, y, y] →
      classify l = ⟨some x, some y, false, under⟩) ∧
    (∀ x y z, x ≠ y → x ≠ z → y ≠ z → glyphs = [x, y, z] → classify l = ⟨some x, some y, false, false⟩)

/-- Keys compare by the first weight at which they differ, the smaller weight the lesser, and the shorter key the lesser where
one runs out (R90). -/
def Obligations.KeysCompareByWeight : Prop :=
  ∀ a b : Key,
    (compareKeys a b = .lt ↔ ∃ n, a.take n = b.take n ∧ n ≤ a.length ∧ n < b.length ∧
      (n = a.length ∨ ∃ x y, a[n]? = some x ∧ b[n]? = some y ∧ x < y)) ∧
    (compareKeys a b = .gt ↔ compareKeys b a = .lt) ∧
    (compareKeys a b = .eq ↔ a = b) ∧
    (b ≠ [] → compareKeys [] b = .lt) ∧ compareKeys [] [] = .eq

/-- When a line is a listing in a window (R87); how its key and its text are formed (R88, R89); and what the in-column check
raises and enters (R93, R94, R95), window by window in window order (R92), nothing in a window where the line is no listing, and
no key without CHECK or without a collation table (R103). The texts are entered under GUIDE alone (R93). -/
def Obligations.ListingsAreCheckedInColumn : Prop :=
  (∀ (w : Window) (cells : List Cell), 1 ≤ w.start →
    (isListing w cells = true ↔ (w.check = true ∨ w.guide = true) ∧
      ∃ p c, w.start + w.keyOffset ≤ p ∧ p < w.start + w.keyOffset + w.keyLength ∧ cells[p - 1]? = some c ∧
        c.base.isSome = true)) ∧
  (∀ (table : CollTable) (field : List Cell),
    let blank := table[(0 : Code)]
    let weights := (field.map fun c => table[c.base.getD 0]).filter fun x => x != 0
    let key := formKey table field
    (∃ n, weights = key ++ List.replicate n blank) ∧ key.getLast? ≠ some blank ∧ key.length ≤ field.length) ∧
  (∀ field : List Cell,
    let codes := field.map fun c => c.base.getD 0
    let text := formText field
    (∃ n, codes = text ++ List.replicate n 0) ∧ text.getLast? ≠ some 0 ∧
    ((∃ c ∈ field, ∃ g, c.base = some g ∧ g ≠ 0) → text ≠ [])) ∧
  (∀ (t : Tools) (table : CollTable) (cells : List Cell) (i : Nat) (w : Window) (c : ColumnRecord) (work : Work),
    isListing w cells = true → w.check = true → t.coll = some table →
    let key := formKey table (keyField w cells)
    let entry (k : Condition) : CondEntry :=
      ⟨k, work.st.page, work.st.line, some (w.start + w.keyOffset), some i⟩
    let r := visitWindows t cells i [w] [c] work
    r.1.checked = true ∧
    (∃ c', r.1.columns = [c'] ∧ c'.listings = c.listings + 1 ∧ c'.lastKey = some key ∧
      c'.firstKey = c.firstKey.or (some key) ∧ c'.firstLine = c.firstLine.or (some work.st.line) ∧
      (w.guide = true → c'.lastText = some (formText (keyField w cells)) ∧
        c'.firstText = c.firstText.or (some (formText (keyField w cells)))) ∧
      (w.guide = false → c'.lastText = c.lastText ∧ c'.firstText = c.firstText) ∧
      c'.breaks = c.breaks + r.1.breaks.length) ∧
    ((c.lastKey = none ∨ ∃ last, c.lastKey = some last ∧ compareKeys key last = .gt) →
      r.1.breaks = [] ∧ r.2 = work) ∧
    (∀ last, c.lastKey = some last → compareKeys key last = .eq →
      r.1.breaks = [] ∧ r.2 = work.raise t.table (entry .duplicateListing)) ∧
    (∀ last, c.lastKey = some last → compareKeys key last = .lt →
      r.1.breaks = [i] ∧ r.2 = work.raise t.table (entry .orderBreak))) ∧
  (∀ (t : Tools) (cells : List Cell) (i : Nat) (w : Window) (ws : List Window) (c : ColumnRecord) (cs : List ColumnRecord)
      (work : Work),
    let r := visitWindows t cells i [w] [c] work
    let text := formText (keyField w cells)
    (let rest := visitWindows t cells (i + 1) ws cs r.2
     visitWindows t cells i (w :: ws) (c :: cs) work = (⟨r.1.columns ++ rest.1.columns, r.1.breaks ++ rest.1.breaks,
      r.1.checked || rest.1.checked⟩, rest.2)) ∧
    visitWindows t cells i [] cs work = (⟨cs, [], false⟩, work) ∧
    (isListing w cells = false → r = (⟨[c], [], false⟩, work)) ∧
    (isListing w cells = true → w.check = false ∨ t.coll = none →
      r = (⟨[{ c with
        firstLine := if w.check = true then c.firstLine.or (some work.st.line) else c.firstLine
        firstText := if w.guide = true then c.firstText.or (some text) else c.firstText
        lastText := if w.guide = true then some text else c.lastText
        listings := c.listings + 1 }], [], w.check⟩, work)))

/-- Rounding is to the nearest, an exact half up (R71); plate rows, plate positions and the cell width are those of R72 and R74;
plate rows rise strictly with the line and plate positions with the print
position (R72, R74); every placed cell and every cell of a guide ends within the page width (R75, R83); and the placed cells
of a line on a valid layout stand at distinct x (R70). -/
def Obligations.PlacedCellsFitThePage : Prop :=
  (∀ a : Nat, 100 * rnd a ≤ a + 50 ∧ a < 100 * rnd a + 50) ∧
  (∀ (l : Layout) (w : Window) (n : Nat), plateRow l .six n = l.topMargin + rnd ((n - 1) * 200 * l.reduction) ∧
    plateRow l .eight n = l.topMargin + rnd ((n - 1) * 150 * l.reduction) ∧
    l.plateX w n = w.outX + rnd ((n - w.start) * 120 * l.reduction) ∧ l.cellWidth = rnd (120 * l.reduction)) ∧
  (∀ l : Layout, 40 ≤ l.reduction →
    (∀ (p : Pitch) (m n : Nat), 1 ≤ m → m < n → plateRow l p m < plateRow l p n) ∧
    (∀ (w : Window) (a b : Nat), w.start ≤ a → a < b → l.plateX w a < l.plateX w b)) ∧
  (∀ (l : Layout) (cells : List Cell) (c : PlacedCell), c ∈ (placeCells l 1 cells).1 → c.x + l.cellWidth ≤ l.width) ∧
  (∀ (l : Layout) (x : Nat) (text : Text) (g : PlacedGuide), placeGuide l x text = some g →
    g.x = x ∧ g.text ≠ [] ∧ g.text <+: text ∧ g.x + g.text.length * l.cellWidth ≤ l.width) ∧
  (∀ (l : Layout) (cells : List Cell), l.valid = true → ((placeCells l 1 cells).1.map PlacedCell.x).Nodup)

/-- A MOVE at a READY station with no strikes and no open page moves the carriage alone: SPACE step by step, setting the overflow
mark on the lines stepped onto, SKIP to the next line that holds its channel; crossing the foot it ends a blank form, which
counts, consumes the page number, is reported and clears the mark (R34 to R36, R38, R40, R41, R43). A SPACE whose steps cross
the foot one or more times ends a form at each crossing, and leaves the mark as the lines of the last form stepped onto say, line 1
among them: that line 1 counts is the model's choice where R42's example differs from R35 (log entry 19). -/
def Obligations.MotionsMoveTheCarriage : Prop :=
  ∀ (s : State) (h : Head) (c : Byte) (before : Bool) (m : Motion) (e : Fin 8) (t : Tape), s.accepts h →
    let st := s.station h.station
    Control.ofByte c = some ⟨before, m⟩ → st.state = .ready → h.seq = st.expected → st.hasStrikes = false →
    st.openPage = none → st.sel.tape = some e → s.library.tapes[e] = some t → st.reports.length ≤ 8 →
    let done (u : Station) : Host.Outcome State Fault Refusal :=
      .next ((s.setStation h.station { u with strikes := emptyLine, expected := !st.expected, idle := .off }).owe
        (leadOf h 0x02) .done)
    let crossed (line : Nat) (overflow : Bool) : Host.Outcome State Fault Refusal :=
      .next ((s.setStation h.station { st with
        line := line, overflow := overflow, page := if st.page = 0xFFFF then 1 else st.page + 1,
        counters := { st.counters with closed := st.counters.closed + 1 },
        reports := (if st.reports.length = 8 then st.reports.tail else st.reports) ++
          [⟨st.job, st.page, 0, 0, 0, 0, none, none, 0, true, false, false, false⟩],
        causes := { st.causes with reportAdded := true },
        strikes := emptyLine, expected := !st.expected, idle := .off }).owe
        (leadOf h 0x02) { Answer.done with pageClosed := true })
    (∀ n, m = .space n → 1 ≤ n → n ≤ 3 → st.line + n ≤ t.formLength →
      exec (.move h [c]) s = done { st with
        line := st.line + n
        overflow := st.overflow || (List.range n).any fun j => t.holdsChannel (st.line + 1 + j) t.overflow }) ∧
    (m = .space 1 → st.line = t.formLength → exec (.move h [c]) s = crossed 1 (t.holdsChannel 1 t.overflow)) ∧
    (∀ n, m = .space n → 1 ≤ n → n ≤ 3 → 1 ≤ st.line → st.line ≤ t.formLength → t.formLength < st.line + n →
      let ends := (st.line + n - 1) / t.formLength
      let line := st.line + n - ends * t.formLength
      let blanks : List Summary :=
        (List.range ends).map fun j => ⟨st.job, nextPage^[j] st.page, 0, 0, 0, 0, none, none, 0, true, false, false, false⟩
      exec (.move h [c]) s = .next ((s.setStation h.station { st with
        line := line, overflow := (List.range line).any fun j => t.holdsChannel (j + 1) t.overflow
        page := nextPage^[ends] st.page
        counters := { st.counters with closed := st.counters.closed + BitVec.ofNat 32 ends }
        reports := (st.reports ++ blanks).drop (st.reports.length + ends - 8)
        causes := { st.causes with reportAdded := true }
        strikes := emptyLine, expected := !st.expected, idle := .off }).owe
        (leadOf h 0x02) { Answer.done with pageClosed := true })) ∧
    (∀ k n, m = .skip k → st.line < n → n ≤ t.formLength → t.holdsChannel n k = true →
      (∀ j, st.line < j → j < n → t.holdsChannel j k = false) →
      exec (.move h [c]) s = done { st with line := n }) ∧
    (∀ k n, m = .skip k → (∀ j, st.line < j → j ≤ t.formLength → t.holdsChannel j k = false) →
      1 ≤ n → n ≤ t.formLength → t.holdsChannel n k = true → (∀ j, 1 ≤ j → j < n → t.holdsChannel j k = false) →
      exec (.move h [c]) s = crossed n false)

/-- A PRINT or MOVE that READY takes, on a form of 2 lines or more, is answered DONE: the expected bit flips, selections, job,
settings and PAGES IMAGED stay, PAGES CLOSED and the page number advance once for each of at most two form ends, at most one
page joins the queue, and the idle timer starts afresh or goes to off (R21, R41 to R44, R62, R65). A SPACE of any count ends on
the line its steps reach, after a form end at each crossing of the foot, the mark standing as the steps left it (R34, R35; log
entry 19); a SKIP ends on the next line that holds its channel, over the foot if need be, where the mark is cleared (R36). The
last clause gives the whole of a motion that leaves the line: the line committed holds the order's strikes under AFTER and not
under BEFORE, then come the form ends, then the line and mark; under BEFORE the strikes stand in the new pending line (R31 to
R33). Strikes, commit and form end are those of OverprintAddsStrikes, CommitFilesTheLine and FormEndClosesThePage. -/
def Obligations.TakenLineOrdersAreDone : Prop :=
  ∀ (s : State) (h : Head) (c : Byte) (ctl : Control) (bytes : Option (List Byte)), s.accepts h →
    let st := s.station h.station
    let tools := s.library.tools st.sel
    let lead := leadOf h (if bytes.isNone then 0x02 else 0x01)
    let go := match bytes with
      | none => exec (.move h [c]) s
      | some bs => exec (.print h (c :: bs)) s
    Control.ofByte c = some ctl → (bytes.getD []).length ≤ 1022 → st.state = .ready → h.seq = st.expected →
    2 ≤ tools.tape.formLength →
    (st.needsSlot tools ctl.motion (ctl.bytesBefore (bytes.getD [])) = true → s.canOpen h.station = true) →
    (∃ (u : Station) (noted : Bool) (n : Nat) (new : List Page),
      go = .next ((s.setStation h.station u).owe lead
        { Answer.done with condition := noted, pageClosed := decide (0 < n) }) ∧
      u.expected = !st.expected ∧ u.sel = st.sel ∧ u.job = st.job ∧ u.quota = st.quota ∧
      u.timerSetting = st.timerSetting ∧ u.matchValue = st.matchValue ∧ u.counters.imaged = st.counters.imaged ∧
      n ≤ 2 ∧ u.counters.closed = st.counters.closed + BitVec.ofNat 32 n ∧ u.page = nextPage^[n] st.page ∧
      u.queue = st.queue ++ new ∧ new.length ≤ 1 ∧ (∀ q ∈ new, q.state = .waiting ∧ q.endJob = false) ∧
      (∀ k, ctl.motion = .space k → 1 ≤ st.line → st.line ≤ tools.tape.formLength →
        n = (st.line + k - 1) / tools.tape.formLength ∧ u.line = st.line + k - n * tools.tape.formLength ∧
        u.overflow = (if n = 0 then
            st.overflow || (List.range k).any fun j => tools.tape.holdsChannel (st.line + 1 + j) tools.tape.overflow
          else (List.range u.line).any fun j => tools.tape.holdsChannel (j + 1) tools.tape.overflow)) ∧
      u.idle = (if u.timerSetting ≠ 0 ∧ u.state = .ready ∧ u.busy = true then .running else .off)) ∧
    ∀ (ends line : Nat) (mark : Bool),
      let form := tools.tape.formLength
      let overflows (n : Nat) : Bool := tools.tape.holdsChannel n tools.tape.overflow
      (∃ k, ctl.motion = .space k ∧ 1 ≤ k ∧ 1 ≤ st.line ∧ st.line ≤ form ∧ ends = (st.line + k - 1) / form ∧
          line = st.line + k - ends * form ∧
          mark = (if ends = 0 then st.overflow || (List.range k).any fun j => overflows (st.line + 1 + j)
            else (List.range line).any fun j => overflows (j + 1))) ∨
        (∃ k, ctl.motion = .skip k ∧ tools.tape.holdsChannel line k = true ∧ line ≤ form ∧
          (ends = 0 ∧ mark = st.overflow ∧ st.line < line ∧
              (∀ j, st.line < j → j < line → tools.tape.holdsChannel j k = false) ∨
            ends = 1 ∧ mark = false ∧ 1 ≤ line ∧ (∀ j, 1 ≤ j → j < line → tools.tape.holdsChannel j k = false) ∧
              ∀ j, st.line < j → j ≤ form → tools.tape.holdsChannel j k = false)) →
      let strike (w : Work) : Work := match bytes with
        | none => w
        | some bs => w.recorded tools bs
      let start : Work := ⟨st, false, false⟩
      let left := (formEnd tools)^[ends] (commit tools (if ctl.before then start else strike start))
      let moved : Work := { left with st := { left.st with line := line, overflow := mark } }
      let done := if ctl.before then strike moved else moved
      go = .next ((s.setStation h.station { done.st with
        expected := !st.expected
        idle := if st.timerSetting ≠ 0 ∧ done.st.state = .ready ∧ done.st.busy = true then .running else .off }).owe lead
          { Answer.done with condition := done.noted, pageClosed := decide (0 < ends) })

/-- A PRINT with SPACE 0 adds each byte's strike to its position and moves nothing (R31, R48, R49, R53). The first clause takes
lines where every position struck has room and no byte meets ABSENT or SUBSTITUTE. The second takes any bytes: those past the 132nd
print nothing; the strike onto a full list is dropped and marked; and the conditions are raised in the order LINE TOO LONG,
EXCESS STRIKE at each position first dropped at, ascending, NOT ON DRUM and SUBSTITUTED at their lowest positions (R50, R51,
R53, R54), CONDITION telling of one applied under a disposition other than IGNORE (R131). -/
def Obligations.OverprintAddsStrikes : Prop :=
  ∀ (s : State) (h : Head) (c : Byte) (before : Bool) (bytes : List Byte), s.accepts h →
    let st := s.station h.station
    let drum := (s.library.tools st.sel).drum
    let table := s.library.dispositions
    Control.ofByte c = some ⟨before, .space 0⟩ → st.state = .ready → h.seq = st.expected →
    (bytes.length ≤ 132 → (∀ p : Fin 132, p.val < bytes.length → st.strikes[p].strikes.length ≤ 2) →
    (∀ b ∈ bytes, lookDrum drum b ≠ .absent ∧ ∀ g, lookDrum drum b ≠ .substitute g) →
    ∃ strikes : Vector Position 132,
      exec (.print h (c :: bytes)) s = .next ((s.setStation h.station { st with
        strikes := strikes
        expected := !st.expected
        idle := if st.timerSetting ≠ 0 ∧ (st.openPage.isSome = true ∨ ∃ p : Fin 132, strikes[p].strikes ≠ [])
          then .running else .off }).owe (leadOf h 0x01) .done) ∧
      ∀ p : Fin 132, strikes[p] =
        { st.strikes[p] with
          strikes := st.strikes[p].strikes ++ strikesOf (bytes[p.val]?.map (lookDrum drum)) }) ∧
    (bytes.length ≤ 1022 →
      let raised := strikeEntries drum bytes st
      let u := raised.foldl (fun x e => x.raise table e) { st with strikes := struckLine drum bytes st.strikes }
      exec (.print h (c :: bytes)) s = .next ((s.setStation h.station { u with
        expected := !st.expected
        idle := if st.timerSetting ≠ 0 ∧ u.state = .ready ∧ u.busy = true then .running else .off }).owe
          (leadOf h 0x01) { Answer.done with condition := raised.any fun e => table[e.kind.number] != .ignore }))

/-- A SKIP to a channel no line of the tape holds raises RUNAWAY, moves and commits nothing, and the order is taken: DONE with the
expected bit flipped (R37, R62). A PRINT's strikes are added to the pending line all the same, before RUNAWAY under AFTER and
after it under BEFORE, as SPACE 0 adds them (R31, R32, R53, `Obligations.OverprintAddsStrikes`). -/
def Obligations.RunawayKeepsTheLine : Prop :=
  ∀ (s : State) (h : Head) (c : Byte) (before : Bool) (k : Nat) (bytes : List Byte), s.accepts h →
    let st := s.station h.station
    let t := (s.library.tools st.sel).tape
    let table := s.library.dispositions
    Control.ofByte c = some ⟨before, .skip k⟩ → st.state = .ready → h.seq = st.expected → bytes.length ≤ 1022 →
    (∀ n, 1 ≤ n → n ≤ t.formLength → t.holdsChannel n k = false) →
    (let raised := st.raise table ⟨.runaway, st.page, st.line, none, none⟩
     exec (.move h [c]) s = .next ((s.setStation h.station { raised with
       expected := !st.expected
       idle := if st.timerSetting ≠ 0 ∧ raised.state = .ready ∧ st.busy = true then .running else .off }).owe
         (leadOf h 0x02) { Answer.done with condition := decide (table[(5 : Fin 16)] ≠ .ignore) })) ∧
    let runaway (w : Work) : Work := w.raise table ⟨.runaway, st.page, st.line, none, none⟩
    let strike (w : Work) : Work := w.recorded (s.library.tools st.sel) bytes
    let start : Work := ⟨st, false, false⟩
    let done := if before then strike (runaway start) else runaway (strike start)
    ∃ (u : Station) (noted : Bool),
      exec (.print h (c :: bytes)) s = .next ((s.setStation h.station u).owe (leadOf h 0x01)
        { Answer.done with condition := noted }) ∧
      noted = done.noted ∧ u = { done.st with
        expected := !st.expected
        idle := if st.timerSetting ≠ 0 ∧ done.st.state = .ready ∧ done.st.busy = true then .running else .off } ∧
      u.strikes = struckLine (s.library.tools st.sel).drum bytes st.strikes ∧
      u.expected = !st.expected ∧ u.line = st.line ∧ u.overflow = st.overflow ∧ u.page = st.page ∧
      u.counters = st.counters ∧ u.carry = st.carry ∧ u.reports = st.reports ∧ u.openPage = st.openPage ∧
      u.queue = st.queue ∧ (∀ p : Fin 132, st.strikes[p].strikes <+: u.strikes[p].strikes) ∧
      u.record.counts[(5 : Fin 16)] = min 65535 (st.record.counts[(5 : Fin 16)] + 1)

/-- The PRINTs and MOVEs that are not taken, in the order of R6: BAD FIELD, NOT READY, the repeat answered DONE with DUPLICATE,
RETRY or STOPPED by the state, and RETRY for want of a slot (R30, R61, R63 to R65, R181). A control byte that is not BAD FIELD
has its timing in bit 7, BEFORE when set, its motion in bit 6, SKIP when set, and the count or channel in bits 3 to 0 (R30,
R180). -/
def Obligations.UntakenLineOrders : Prop :=
  (∀ c : Byte,
    let low := (c.extractLsb' 0 4).toNat
    c.getLsbD 4 = false → c.getLsbD 5 = false →
    (c.getLsbD 6 = false → low ≤ 3 → Control.ofByte c = some ⟨c.getLsbD 7, .space low⟩) ∧
    (c.getLsbD 6 = true → 1 ≤ low → low ≤ 12 → Control.ofByte c = some ⟨c.getLsbD 7, .skip low⟩)) ∧
  ∀ (s : State) (h : Head) (c : Byte) (bytes : Option (List Byte)), s.accepts h → (bytes.getD []).length ≤ 1022 →
    let st := s.station h.station
    let tools := s.library.tools st.sel
    let table := s.library.dispositions
    let lead := leadOf h (if bytes.isNone then 0x02 else 0x01)
    let go := match bytes with
      | none => exec (.move h [c]) s
      | some bs => exec (.print h (c :: bs)) s
    let low := (c.extractLsb' 0 4).toNat
    (c.getLsbD 4 = true ∨ c.getLsbD 5 = true ∨ c.getLsbD 6 = false ∧ 4 ≤ low ∨
        c.getLsbD 6 = true ∧ (low = 0 ∨ 13 ≤ low) →
      go = .next (s.owe lead (.refused .badField))) ∧
    ∀ ctl, Control.ofByte c = some ctl →
      (st.state = .unloaded → go = .next (s.owe lead (.refused .notReady))) ∧
      (st.state ≠ .unloaded → h.seq ≠ st.expected →
        go = .next ((s.setStation h.station
          (st.raise table ⟨.duplicateLine, st.page, st.line, none, none⟩)).owe lead
            { Answer.done with
              duplicate := true
              condition := decide (st.state ≠ .stopped ∧ table[(15 : Fin 16)] ≠ .ignore) })) ∧
      (h.seq = st.expected → st.state = .held ∨ st.state = .draining → go = .next (s.owe lead .retry)) ∧
      (h.seq = st.expected → st.state = .stopped → go = .next (s.owe lead (.refused .stopped))) ∧
      (h.seq = st.expected → st.state = .ready → st.openPage = none → s.canOpen h.station = false →
        (st.hasStrikes = true ∨
          ctl.before = false ∧ ∃ b ∈ (bytes.getD []).take 132, (lookDrum tools.drum b).strike.isSome = true) →
        ((∃ n, ctl.motion = .space n ∧ n ≠ 0) ∨
          ∃ k n, ctl.motion = .skip k ∧ 1 ≤ n ∧ n ≤ tools.tape.formLength ∧ tools.tape.holdsChannel n k = true) →
        go = .next (s.owe lead .retry))

/-- A commit empties the pending line; a line without strikes does nothing more; one with strikes counts in LINES and goes to the
open page, opened first with the station's numbers and the layout's frame, where it adds at most one line record, at the
line's own row; below the foot it adds none and the page is CLIPPED (R56, R75, R78 to R80). A record is filed exactly when the
row is not below the foot and some cell fits, and holds the line's non-empty cells that fit, each at its plate position, in
ascending x (R74, R75). The commit raises STRIKE CLASH at the lowest position with three distinct glyphs, then FOOT CLIP or else
EDGE CLIP at the lowest position dropped, in its window, either of which sets CLIPPED, and then what Order Check raises window by
window; the line record carries the break list, and LISTINGS and the page's listing count rise once if a CHECK window had a
listing (R58, R76, R77, R79, R92, R96, R97). -/
def Obligations.CommitFilesTheLine : Prop :=
  ∀ (t : Tools) (w : Work),
    let r := commit t w
    let before := (w.st.openPage.map Page.lines).getD []
    (∀ k : Fin 132, r.st.strikes[k] = ⟨[], false⟩) ∧
    (w.st.hasStrikes = false → r = { w with st := { w.st with strikes := emptyLine } }) ∧
    r.st.line = w.st.line ∧ r.st.overflow = w.st.overflow ∧ r.st.page = w.st.page ∧ r.st.carry = w.st.carry ∧
    r.st.queue = w.st.queue ∧ r.st.reports = w.st.reports ∧ r.st.counters.closed = w.st.counters.closed ∧
    (w.st.hasStrikes = true →
      r.st.counters.lines = w.st.counters.lines + 1 ∧
      ∃ p new, r.st.openPage = some p ∧ p.lines = before ++ new ∧ new.length ≤ 1 ∧
        (∀ x ∈ new, x.line = w.st.line ∧ x.y = plateRow t.layout t.tape.pitch w.st.line ∧ x.y ≤ t.layout.depth ∧
          x.cells ≠ [] ∧ ∀ c ∈ x.cells, c.x + t.layout.cellWidth ≤ t.layout.width) ∧
        (t.layout.depth < plateRow t.layout t.tape.pitch w.st.line → new = [] ∧ p.clipped = true) ∧
        (w.st.openPage = none →
          p.state = .opened ∧ p.job = w.st.job ∧ p.page = w.st.page ∧ p.width = t.layout.width ∧
          p.depth = t.layout.depth ∧ p.markBreaks = t.layout.markBreaks ∧ p.endJob = false ∧ p.spoils = 0 ∧
          p.columns.length = t.layout.windows.length) ∧
        (∀ q, w.st.openPage = some q →
          p.state = q.state ∧ p.job = q.job ∧ p.page = q.page ∧ p.width = q.width ∧ p.depth = q.depth ∧
          p.markBreaks = q.markBreaks ∧ (q.clipped = true → p.clipped = true)) ∧
        (let cells := w.st.strikes.toList.map fun x => classify x.strikes
         let windows := t.layout.windows
         let entry (k : Condition) (pos col : Option Nat) : CondEntry := ⟨k, w.st.page, w.st.line, pos, col⟩
         let glyphs (n : Fin 132) : List Code := w.st.strikes[n].strikes.filterMap fun x => match x with
           | .glyph g => some g
           | .underscore => none
         let clash := (List.finRange 132).find? fun n => 3 ≤ (glyphs n).dedup.length
         let foot := t.layout.depth < plateRow t.layout t.tape.pitch w.st.line
         let dropped (n : Fin 132) : Option (Nat × Nat) :=
           if w.st.strikes[n].strikes = [] then none
           else (windows.findIdx? fun x => x.start ≤ n.val + 1 ∧ n.val + 1 < x.start + x.width).bind fun i =>
             windows[i]?.bind fun x =>
               if t.layout.width < t.layout.plateX x (n.val + 1) + t.layout.cellWidth then some (n.val + 1, i) else none
         let edge : Option (Nat × Nat) := if foot then none else (List.finRange 132).findSome? dropped
         let raised : List CondEntry :=
           (clash.toList.map fun n => entry .strikeClash (some (n.val + 1)) none) ++
           (if foot then [entry .footClip none none] else []) ++
           edge.toList.map fun x => entry .edgeClip (some x.1) (some x.2)
         let columns := (w.st.openPage.map Page.columns).getD (windows.map fun _ => ⟨none, none, none, none, none, 0, 0⟩)
         let v := visitWindows t cells 0 windows columns (raised.foldl (fun x e => x.raise t.table e) w)
         let rise : Nat := if v.1.checked then 1 else 0
         let placed (n : Fin 132) : Option PlacedCell :=
           if w.st.strikes[n].strikes = [] then none
           else (windows.findIdx? fun x => x.start ≤ n.val + 1 ∧ n.val + 1 < x.start + x.width).bind fun i =>
             windows[i]?.bind fun x =>
               if t.layout.plateX x (n.val + 1) + t.layout.cellWidth ≤ t.layout.width then
                 some ⟨t.layout.plateX x (n.val + 1), classify w.st.strikes[n].strikes⟩ else none
         let fitting : List PlacedCell := (List.finRange 132).filterMap placed
         (foot ∨ fitting = [] → new = []) ∧
         (¬ foot → fitting ≠ [] → ∃ kept : List PlacedCell,
           new = [⟨w.st.line, plateRow t.layout t.tape.pitch w.st.line, kept, v.1.breaks⟩] ∧ kept.Perm fitting ∧
           kept.Pairwise fun a b => a.x ≤ b.x) ∧
         r.noted = v.2.noted ∧ r.closed = w.closed ∧ r.st.record = v.2.st.record ∧ r.st.state = v.2.st.state ∧
         r.st.holds = v.2.st.holds ∧ r.st.stopCode = v.2.st.stopCode ∧ r.st.causes = v.2.st.causes ∧
         r.st.idle = v.2.st.idle ∧
         p.clipped = ((w.st.openPage.map Page.clipped).getD false || decide foot || edge.isSome) ∧
         p.columns = v.1.columns ∧ (∀ x ∈ new, x.breaks = v.1.breaks) ∧
         v.1.checked = (windows.zip columns).any (fun x => x.1.check && isListing x.1 cells) ∧
         p.listings = (w.st.openPage.map Page.listings).getD 0 + rise ∧
         r.st.counters.listings = w.st.counters.listings + BitVec.ofNat 32 rise))

/-- A form end without an open page ends a blank form, which counts, consumes the page number and is reported (R40). A form end
with an open page closes it: WAITING at the queue's tail with its numbers and lines, its guides captured from the
first and the last GUIDE window with a listing; the carry key becomes the last key of the last CHECK window with a listing under
a collation table and is kept otherwise; PAGES CLOSED and the page number advance, the mark is cleared, line 1
(R38, R39, R82, R100, R101, R103). Under a collation table each CHECK window with a listing whose first key is less than the key
before it in the chain, the carry key for the first, raises SEAM BREAK at its first line and counts (R98, R99); that line is
the free value of log entry 3 in states no run reaches. The guides are placed at the left guide x, and to end at the right guide
x or from 0, cut to the cells that end within the page width (R83). -/
def Obligations.FormEndClosesThePage : Prop :=
  (∀ (t : Tools) (w : Work), w.st.openPage = none →
    formEnd t w = ⟨{ w.st with
      line := 1, overflow := false, page := if w.st.page = 0xFFFF then 1 else w.st.page + 1
      counters := { w.st.counters with closed := w.st.counters.closed + 1 }
      reports := w.st.reports.drop (w.st.reports.length + 1 - 8) ++
        [⟨w.st.job, w.st.page, 0, 0, 0, 0, none, none, 0, true, false, false, false⟩]
      causes := { w.st.causes with reportAdded := true } }, w.noted, true⟩) ∧
  ∀ (t : Tools) (w : Work) (p : Page), w.st.openPage = some p →
    let r := formEnd t w
    let columns := t.layout.windows.zip p.columns
    let checked := columns.filter fun x => x.1.check && x.2.listings != 0
    let guided := columns.filter fun x => x.1.guide && x.2.listings != 0
    r.closed = true ∧ r.st.openPage = none ∧ r.st.line = 1 ∧ r.st.overflow = false ∧
    r.st.counters = { w.st.counters with closed := w.st.counters.closed + 1 } ∧
    r.st.page = (if w.st.page = 0xFFFF then 1 else w.st.page + 1) ∧ r.st.reports = w.st.reports ∧
    r.st.carry = (if t.coll.isNone then w.st.carry else match checked.getLast? with
      | none => w.st.carry
      | some x => x.2.lastKey) ∧
    ∃ q : Page, r.st.queue = w.st.queue ++ [q] ∧ q.state = .waiting ∧ q.job = p.job ∧ q.page = p.page ∧
      q.width = p.width ∧ q.depth = p.depth ∧ q.markBreaks = p.markBreaks ∧ q.lines = p.lines ∧
      q.columns = p.columns ∧ q.listings = p.listings ∧ q.clipped = p.clipped ∧ q.endJob = false ∧
      q.spoils = p.spoils ∧ q.guideRow = t.layout.guideRow ∧
      q.firstGuide = guided.head?.bind (fun x => x.2.firstText) ∧
      q.lastGuide = guided.getLast?.bind (fun x => x.2.lastText) ∧
      (let l := t.layout
       let numbered := (columns.zipIdx).filter fun x => x.1.1.check && x.1.2.listings != 0
       let before : List (Option Key) := w.st.carry :: numbered.map fun x => x.1.2.lastKey
       let broken := (numbered.zip before).filter fun x =>
         match x.1.1.2.firstKey, x.2 with
         | some first, some last => compareKeys first last == .lt
         | _, _ => false
       let seams : List CondEntry := if t.coll.isNone then [] else broken.map fun x =>
         ⟨.seamBreak, w.st.page, x.1.1.2.firstLine.getD Config.noFirstLine, none, some x.1.2⟩
       let raised := seams.foldl (fun x e => x.raise t.table e) w
       let fits (x : Nat) (text : Text) : Option PlacedGuide :=
         let kept := text.take ((List.range text.length).countP fun n => x + (n + 1) * l.cellWidth ≤ l.width)
         if kept = [] then none else some ⟨kept, x⟩
       q.seamBreaks = p.seamBreaks + seams.length ∧ r.noted = raised.noted ∧ r.st.record = raised.st.record ∧
       r.st.state = raised.st.state ∧ r.st.holds = raised.st.holds ∧ r.st.stopCode = raised.st.stopCode ∧
       r.st.causes = raised.st.causes ∧ r.st.idle = raised.st.idle ∧
       q.firstPlaced = q.firstGuide.bind (fits l.leftGuide) ∧
       q.lastPlaced = q.lastGuide.bind fun text => fits (l.rightGuide - text.length * l.cellWidth) text)
end

