-- ==== Sys2Proof/Laws/State.lean ====
section
/-! SUPPORT. One lemma per field per update of the state, each true by unfolding the update once, and the laws of
reading a station after writing one. -/

namespace Sys2Proof.Machine

variable (s : State) (i j : StationId) (st : Station)

/-! ## Writing a station -/

@[simp] theorem State.station_setStation_same : (s.setStation i st).station i = st := by
  simp [State.station, State.setStation]

theorem State.station_setStation :
    (s.setStation i st).station j = if i = j then st else s.station j := by
  simp only [State.station, State.setStation, Fin.getElem_fin, Vector.getElem_set, Fin.ext_iff]

@[simp] theorem State.station_setStation_ne {i j : StationId} (h : i ≠ j) :
    (s.setStation i st).station j = s.station j := by
  rw [State.station_setStation, if_neg h]

@[simp] theorem State.setStation_station : s.setStation i (s.station i) = s := by
  simp [State.station, State.setStation]

@[simp] theorem State.setStation_setStation (st' : Station) :
    (s.setStation i st).setStation i st' = s.setStation i st' := by
  simp [State.setStation]

@[simp] theorem State.setStation_parks : (s.setStation i st).parks = s.parks := rfl
@[simp] theorem State.setStation_library : (s.setStation i st).library = s.library := rfl
@[simp] theorem State.setStation_port : (s.setStation i st).port = s.port := rfl
@[simp] theorem State.setStation_pointer : (s.setStation i st).pointer = s.pointer := rfl
@[simp] theorem State.setStation_link : (s.setStation i st).link = s.link := rfl
@[simp] theorem State.setStation_pending : (s.setStation i st).pending = s.pending := rfl

/-! ## Changing every station -/

@[simp] theorem State.station_mapStations (f : Station → Station) :
    (s.mapStations f).station i = f (s.station i) := by
  fin_cases i <;> rfl

@[simp] theorem State.mapStations_parks (f : Station → Station) : (s.mapStations f).parks = s.parks := rfl
@[simp] theorem State.mapStations_library (f : Station → Station) : (s.mapStations f).library = s.library := rfl
@[simp] theorem State.mapStations_port (f : Station → Station) : (s.mapStations f).port = s.port := rfl
@[simp] theorem State.mapStations_pointer (f : Station → Station) : (s.mapStations f).pointer = s.pointer := rfl
@[simp] theorem State.mapStations_link (f : Station → Station) : (s.mapStations f).link = s.link := rfl
@[simp] theorem State.mapStations_pending (f : Station → Station) : (s.mapStations f).pending = s.pending := rfl

/-! ## The receive state -/

@[simp] theorem State.station_setReceive (r : Receive) (b : Bool) : (s.setReceive r b).station i = s.station i := rfl
@[simp] theorem State.setReceive_stations (r : Receive) (b : Bool) : (s.setReceive r b).stations = s.stations := rfl
@[simp] theorem State.setReceive_parks (r : Receive) (b : Bool) : (s.setReceive r b).parks = s.parks := rfl
@[simp] theorem State.setReceive_library (r : Receive) (b : Bool) : (s.setReceive r b).library = s.library := rfl
@[simp] theorem State.setReceive_port (r : Receive) (b : Bool) : (s.setReceive r b).port = s.port := rfl
@[simp] theorem State.setReceive_pointer (r : Receive) (b : Bool) : (s.setReceive r b).pointer = s.pointer := rfl
@[simp] theorem State.setReceive_pending (r : Receive) (b : Bool) : (s.setReceive r b).pending = s.pending := rfl

@[simp] theorem State.setReceive_receive (r : Receive) (b : Bool) : (s.setReceive r b).link.receive = r := rfl
@[simp] theorem State.setReceive_interByte (r : Receive) (b : Bool) : (s.setReceive r b).link.interByte = b := rfl
@[simp] theorem State.setReceive_lastRead (r : Receive) (b : Bool) : (s.setReceive r b).link.lastRead = s.link.lastRead := rfl
@[simp] theorem State.setReceive_causes (r : Receive) (b : Bool) : (s.setReceive r b).link.causes = s.link.causes := rfl
@[simp] theorem State.setReceive_enable (r : Receive) (b : Bool) : (s.setReceive r b).link.enable = s.link.enable := rfl
@[simp] theorem State.setReceive_activeHigh (r : Receive) (b : Bool) :
    (s.setReceive r b).link.activeHigh = s.link.activeHigh := rfl
@[simp] theorem State.setReceive_setReceive (r r' : Receive) (b b' : Bool) :
    (s.setReceive r b).setReceive r' b' = s.setReceive r' b' := rfl

/-! ## An ending status owed -/

@[simp] theorem State.station_owe (l : Lead) (a : Answer) : (s.owe l a).station i = s.station i := rfl
@[simp] theorem State.owe_stations (l : Lead) (a : Answer) : (s.owe l a).stations = s.stations := rfl
@[simp] theorem State.owe_parks (l : Lead) (a : Answer) : (s.owe l a).parks = s.parks := rfl
@[simp] theorem State.owe_library (l : Lead) (a : Answer) : (s.owe l a).library = s.library := rfl
@[simp] theorem State.owe_port (l : Lead) (a : Answer) : (s.owe l a).port = s.port := rfl
@[simp] theorem State.owe_pointer (l : Lead) (a : Answer) : (s.owe l a).pointer = s.pointer := rfl
@[simp] theorem State.owe_pending (l : Lead) (a : Answer) : (s.owe l a).pending = s.pending := rfl

@[simp] theorem State.owe_receive (l : Lead) (a : Answer) :
    (s.owe l a).link.receive = .statusOwed l.toByte (s.statusTail l a) := rfl
@[simp] theorem State.owe_interByte (l : Lead) (a : Answer) : (s.owe l a).link.interByte = false := rfl
@[simp] theorem State.owe_lastRead (l : Lead) (a : Answer) : (s.owe l a).link.lastRead = s.link.lastRead := rfl
@[simp] theorem State.owe_causes (l : Lead) (a : Answer) : (s.owe l a).link.causes = s.link.causes := rfl
@[simp] theorem State.owe_enable (l : Lead) (a : Answer) : (s.owe l a).link.enable = s.link.enable := rfl
@[simp] theorem State.owe_activeHigh (l : Lead) (a : Answer) : (s.owe l a).link.activeHigh = s.link.activeHigh := rfl

/-! ## The queue of commands -/

@[simp] theorem State.station_setPending (q : List Instr) : (s.setPending q).station i = s.station i := rfl
@[simp] theorem State.setPending_stations (q : List Instr) : (s.setPending q).stations = s.stations := rfl
@[simp] theorem State.setPending_parks (q : List Instr) : (s.setPending q).parks = s.parks := rfl
@[simp] theorem State.setPending_library (q : List Instr) : (s.setPending q).library = s.library := rfl
@[simp] theorem State.setPending_port (q : List Instr) : (s.setPending q).port = s.port := rfl
@[simp] theorem State.setPending_pointer (q : List Instr) : (s.setPending q).pointer = s.pointer := rfl
@[simp] theorem State.setPending_link (q : List Instr) : (s.setPending q).link = s.link := rfl

@[simp] theorem State.setPending_pending (q : List Instr) : (s.setPending q).pending = q := rfl

/-! ## A raw level -/

@[simp] theorem State.station_setRaw (l : Line) (b : Bool) : (s.setRaw l b).station i = s.station i := rfl
@[simp] theorem State.setRaw_stations (l : Line) (b : Bool) : (s.setRaw l b).stations = s.stations := rfl
@[simp] theorem State.setRaw_parks (l : Line) (b : Bool) : (s.setRaw l b).parks = s.parks := rfl
@[simp] theorem State.setRaw_library (l : Line) (b : Bool) : (s.setRaw l b).library = s.library := rfl
@[simp] theorem State.setRaw_pointer (l : Line) (b : Bool) : (s.setRaw l b).pointer = s.pointer := rfl
@[simp] theorem State.setRaw_link (l : Line) (b : Bool) : (s.setRaw l b).link = s.link := rfl
@[simp] theorem State.setRaw_pending (l : Line) (b : Bool) : (s.setRaw l b).pending = s.pending := rfl

@[simp] theorem State.setRaw_debounced (l : Line) (b : Bool) : (s.setRaw l b).port.debounced = s.port.debounced := rfl
@[simp] theorem State.setRaw_setup (l : Line) (b : Bool) : (s.setRaw l b).port.setup = s.port.setup := rfl
@[simp] theorem State.setRaw_state (l : Line) (b : Bool) : (s.setRaw l b).port.state = s.port.state := rfl
@[simp] theorem State.setRaw_flight (l : Line) (b : Bool) : (s.setRaw l b).port.flight = s.port.flight := rfl
@[simp] theorem State.setRaw_raw (l : Line) (b : Bool) : (s.setRaw l b).port.raw = s.port.raw.put l b := rfl

/-! ## A stray reply -/

@[simp] theorem State.station_strayReply : (s.strayReply).station i = s.station i := rfl
@[simp] theorem State.strayReply_stations : (s.strayReply).stations = s.stations := rfl
@[simp] theorem State.strayReply_parks  : (s.strayReply).parks = s.parks := rfl
@[simp] theorem State.strayReply_library  : (s.strayReply).library = s.library := rfl
@[simp] theorem State.strayReply_pointer  : (s.strayReply).pointer = s.pointer := rfl
@[simp] theorem State.strayReply_link  : (s.strayReply).link = s.link := rfl
@[simp] theorem State.strayReply_pending  : (s.strayReply).pending = s.pending := rfl

@[simp] theorem State.strayReply_state : s.strayReply.port.state = s.port.state := rfl
@[simp] theorem State.strayReply_flight : s.strayReply.port.flight = s.port.flight := rfl
@[simp] theorem State.strayReply_replyTimer : s.strayReply.port.replyTimer = s.port.replyTimer := rfl
@[simp] theorem State.strayReply_imagingTimer : s.strayReply.port.imagingTimer = s.port.imagingTimer := rfl
@[simp] theorem State.strayReply_stray : s.strayReply.port.stray = min Config.maxCount (s.port.stray + 1) := rfl

/-! ## One value per line -/

variable {α : Type} (v : PerLine α) (x : α)

@[simp] theorem PerLine.get_put_same (l : Line) : (v.put l x).get l = x := by cases l <;> rfl

@[simp] theorem PerLine.get_put_ne {l m : Line} (h : l ≠ m) : (v.put l x).get m = v.get m := by
  cases l <;> cases m <;> first | rfl | exact absurd rfl h

/-! ## The port with its flight cleared -/

@[simp] theorem Port.clearFlight_state (p : PortState) (q : Port) : (q.clearFlight p).state = p := rfl
@[simp] theorem Port.clearFlight_flight (p : PortState) (q : Port) : (q.clearFlight p).flight = none := rfl
@[simp] theorem Port.clearFlight_replyTimer (p : PortState) (q : Port) : (q.clearFlight p).replyTimer = false := rfl
@[simp] theorem Port.clearFlight_imagingTimer (p : PortState) (q : Port) : (q.clearFlight p).imagingTimer = none := rfl
@[simp] theorem Port.clearFlight_outgoing (p : PortState) (q : Port) : (q.clearFlight p).outgoing = [] := rfl
@[simp] theorem Port.clearFlight_returned (p : PortState) (q : Port) : (q.clearFlight p).returned = q.returned := rfl
@[simp] theorem Port.clearFlight_debounced (p : PortState) (q : Port) :
    (q.clearFlight p).debounced = q.debounced := rfl
@[simp] theorem Port.clearFlight_raw (p : PortState) (q : Port) : (q.clearFlight p).raw = q.raw := rfl
@[simp] theorem Port.clearFlight_stray (p : PortState) (q : Port) : (q.clearFlight p).stray = q.stray := rfl
@[simp] theorem Port.clearFlight_setup (p : PortState) (q : Port) : (q.clearFlight p).setup = q.setup := rfl

/-! ## A choice of the arbiter -/

/-- Where no choice is due the arbiter changes nothing. -/
@[simp] theorem State.arbitrate_of_not_due (h : s.choiceDue = false) : s.arbitrate = s := by
  simp only [State.choiceDue, Bool.and_eq_false_iff] at h
  unfold State.arbitrate
  rcases h with h | h
  · simp [h]
  · split
    · rw [Option.isSome_eq_false_iff, Option.isNone_iff_eq_none] at h
      simp [h]
    · rfl

/-- A choice takes the port out of IDLE, so none is due after it. -/
theorem State.arbitrate_not_due : s.arbitrate.choiceDue = false := by
  unfold State.arbitrate
  split
  · split
    · rename_i h
      simp [State.choiceDue, h]
    · rename_i i h
      split
      · rename_i hq
        have hr : (s.station i).headReady = true := by simpa using List.find?_some h
        simp [Station.headReady, hq] at hr
      · simp [State.choiceDue, Port.choosing]
  · rename_i h
    simp [State.choiceDue, h]

@[simp] theorem State.arbitrate_arbitrate : s.arbitrate.arbitrate = s.arbitrate :=
  State.arbitrate_of_not_due _ (State.arbitrate_not_due _)

/-- A choice leaves the park slots, the library, the link, the waiting commands and the lines alone. -/
theorem State.arbitrate_keeps :
    s.arbitrate.parks = s.parks ∧ s.arbitrate.library = s.library ∧ s.arbitrate.link = s.link ∧
    s.arbitrate.pending = s.pending ∧ s.arbitrate.port.debounced = s.port.debounced ∧
    s.arbitrate.port.raw = s.port.raw ∧ s.arbitrate.port.setup = s.port.setup ∧
    s.arbitrate.port.stray = s.port.stray ∧ s.arbitrate.port.replyTimer = s.port.replyTimer ∧
    s.arbitrate.port.imagingTimer = s.port.imagingTimer := by
  unfold State.arbitrate
  split
  · split
    · simp
    · split <;> simp
  · simp

@[simp] theorem State.arbitrate_parks : s.arbitrate.parks = s.parks := (State.arbitrate_keeps s).1
@[simp] theorem State.arbitrate_library : s.arbitrate.library = s.library := (State.arbitrate_keeps s).2.1
@[simp] theorem State.arbitrate_link : s.arbitrate.link = s.link := (State.arbitrate_keeps s).2.2.1
@[simp] theorem State.arbitrate_pending : s.arbitrate.pending = s.pending := (State.arbitrate_keeps s).2.2.2.1

/-- Where no choice is due, a line's change has nothing before it. -/
@[simp] theorem State.beforeLine_of_not_due (l : Line) (b : Bool) (h : s.choiceDue = false) : s.beforeLine l b = s := by
  simp [State.beforeLine, h]

/-- What comes before a line's change is a due choice, or the change that falls together with the reply just taken (R161). -/
theorem State.beforeLine_cases (l : Line) (b : Bool) :
    s.beforeLine l b = s.arbitrate ∨
    s.choiceDue = true ∧ s.port.returned = true ∧ losesImager l b = true ∧ s.port.debounced.get l ≠ b ∧
      s.beforeLine l b = { s with port := { s.port with returned := false } } := by
  unfold State.beforeLine
  split
  · rename_i h
    simp only [Bool.and_eq_true, bne_iff_ne, ne_eq] at h
    exact .inr ⟨h.1.1.1, h.1.1.2, h.1.2, h.2, rfl⟩
  · exact .inl rfl

@[simp] theorem State.beforeLine_pending (l : Line) (b : Bool) : (s.beforeLine l b).pending = s.pending := by
  rcases s.beforeLine_cases l b with h | ⟨-, -, -, -, h⟩ <;> simp [h]

@[simp] theorem State.markReturn_station (i : StationId) : s.markReturn.station i = s.station i := rfl
@[simp] theorem State.markReturn_parks : s.markReturn.parks = s.parks := rfl
@[simp] theorem State.markReturn_library : s.markReturn.library = s.library := rfl
@[simp] theorem State.markReturn_pointer : s.markReturn.pointer = s.pointer := rfl
@[simp] theorem State.markReturn_link : s.markReturn.link = s.link := rfl
@[simp] theorem State.markReturn_pending : s.markReturn.pending = s.pending := rfl
@[simp] theorem State.markReturn_choiceDue : s.markReturn.choiceDue = s.choiceDue := rfl
@[simp] theorem State.markReturn_state : s.markReturn.port.state = s.port.state := rfl
@[simp] theorem State.markReturn_flight : s.markReturn.port.flight = s.port.flight := rfl
@[simp] theorem State.markReturn_returned : s.markReturn.port.returned = s.choiceDue := rfl

/-! ## Two states are the same when their parts are -/

theorem State.ext_of_parts {a b : State} (hs : ∀ i, a.station i = b.station i) (hp : a.parks = b.parks)
    (hl : a.library = b.library) (ho : a.port = b.port) (hr : a.pointer = b.pointer) (hk : a.link = b.link)
    (hq : a.pending = b.pending) : a = b := by
  have hst : a.stations = b.stations := by
    apply Vector.ext
    intro k hk
    exact hs ⟨k, hk⟩
  cases a; cases b
  simp_all

end Sys2Proof.Machine
end

