-- ==== Sys2Proof/Laws/Conditions.lean ====
section
/-! SUPPORT. What raising a condition and changing hold causes can do: the parts of a station they leave alone, and the
cases of the Condition Unit (R120 to R128). -/

namespace Sys2Proof.Machine

/-- What no line work, page close or condition changes: selections, job, expected bit, quota, timer setting, match
value. -/
def Station.settings (st : Station) : Selections × Half × Bool × Nat × Nat × Word :=
  (st.sel, st.job, st.expected, st.quota, st.timerSetting, st.matchValue)

/-- Where the station stands on its form and what it has composed. -/
def Station.form (st : Station) :
    Nat × Bool × Half × Option Key × List Summary × Counters × Option Page × List Page :=
  (st.line, st.overflow, st.page, st.carry, st.reports, st.counters, st.openPage, st.queue)

variable (table : Dispositions) (e : CondEntry) (st : Station)

/-! ## Hold causes and stops -/

theorem Station.addHolds_cases (h : Holds) :
    st.addHolds h = { st with holds := h, state := .held, idle := .off } ∧ st.state = .ready ∨
    st.addHolds h = { st with holds := h } ∧ st.state ≠ .ready := by
  unfold Station.addHolds
  split <;> simp_all

theorem Station.refreshIdle_eq :
    st.refreshIdle = { st with idle := if st.meetsRunning then (if st.idle = .off then .running else st.idle) else .off } := by
  unfold Station.refreshIdle
  split <;> simp_all

theorem Station.removeHolds_cases (h : Holds) :
    (st.removeHolds h = Station.refreshIdle { st with holds := h, state := .ready } ∧ st.state = .held ∧ h.isEmpty = true) ∨
    (st.removeHolds h = { st with holds := h } ∧ ¬ (st.state = .held ∧ h.isEmpty = true)) := by
  unfold Station.removeHolds
  split <;> simp_all

/-! ## Raising (R120) -/

/-- Raising a condition writes the state, hold causes, stop code, idle timer, condition record and attention causes, and
nothing else. -/
theorem Station.raise_touches :
    st.raise table e = { st with
      state := (st.raise table e).state
      holds := (st.raise table e).holds
      stopCode := (st.raise table e).stopCode
      idle := (st.raise table e).idle
      record := (st.raise table e).record
      causes := (st.raise table e).causes } := by
  unfold Station.raise Station.applyDisposition
  split
  · rfl
  · split
    · rfl
    · rfl
    · split
      · rfl
      · unfold Station.addHolds
        split <;> rfl
    · rfl

@[simp] theorem Station.raise_settings : (st.raise table e).settings = st.settings := by
  rw [Station.raise_touches]; rfl

@[simp] theorem Station.raise_form : (st.raise table e).form = st.form := by
  rw [Station.raise_touches]; rfl

@[simp] theorem Station.raise_sel : (st.raise table e).sel = st.sel := by rw [Station.raise_touches]
@[simp] theorem Station.raise_line : (st.raise table e).line = st.line := by rw [Station.raise_touches]
@[simp] theorem Station.raise_overflow : (st.raise table e).overflow = st.overflow := by rw [Station.raise_touches]
@[simp] theorem Station.raise_job : (st.raise table e).job = st.job := by rw [Station.raise_touches]
@[simp] theorem Station.raise_page : (st.raise table e).page = st.page := by rw [Station.raise_touches]
@[simp] theorem Station.raise_expected : (st.raise table e).expected = st.expected := by rw [Station.raise_touches]
@[simp] theorem Station.raise_counters : (st.raise table e).counters = st.counters := by rw [Station.raise_touches]
@[simp] theorem Station.raise_carry : (st.raise table e).carry = st.carry := by rw [Station.raise_touches]
@[simp] theorem Station.raise_quota : (st.raise table e).quota = st.quota := by rw [Station.raise_touches]
@[simp] theorem Station.raise_timerSetting : (st.raise table e).timerSetting = st.timerSetting := by
  rw [Station.raise_touches]
@[simp] theorem Station.raise_matchValue : (st.raise table e).matchValue = st.matchValue := by
  rw [Station.raise_touches]
@[simp] theorem Station.raise_reports : (st.raise table e).reports = st.reports := by rw [Station.raise_touches]
@[simp] theorem Station.raise_strikes : (st.raise table e).strikes = st.strikes := by rw [Station.raise_touches]
@[simp] theorem Station.raise_openPage : (st.raise table e).openPage = st.openPage := by rw [Station.raise_touches]
@[simp] theorem Station.raise_queue : (st.raise table e).queue = st.queue := by rw [Station.raise_touches]

@[simp] theorem Station.raise_busy : (st.raise table e).busy = st.busy := by
  simp [Station.busy, Station.hasStrikes]

@[simp] theorem Station.raise_holdings : (st.raise table e).holdings = st.holdings := by
  simp [Station.holdings]

/-- The state, hold causes and stop code after a raising, by the disposition and the state before (the table of
section 7.3). -/
theorem Station.raise_cases :
    ((st.raise table e).state = st.state ∧ (st.raise table e).holds = st.holds ∧
      (st.raise table e).stopCode = st.stopCode ∧ (st.raise table e).idle = st.idle) ∨
    (st.state = .ready ∧ (st.raise table e).state = .held ∧
      (st.raise table e).holds = { st.holds with condition := true } ∧
      (st.raise table e).stopCode = st.stopCode ∧ (st.raise table e).idle = .off) ∨
    (st.state ≠ .ready ∧ st.state ≠ .stopped ∧ (st.raise table e).state = st.state ∧
      (st.raise table e).holds = { st.holds with condition := true } ∧
      (st.raise table e).stopCode = st.stopCode ∧ (st.raise table e).idle = st.idle) ∨
    (st.state ≠ .stopped ∧ (st.raise table e).state = .stopped ∧ (st.raise table e).holds = st.holds ∧
      ((st.raise table e).stopCode = .conditionStop ∨ (st.raise table e).stopCode = .secondCondition) ∧
      (st.raise table e).idle = .off) := by
  unfold Station.raise
  split
  · left; simp [Station.counted]
  · rename_i hs
    unfold Station.applyDisposition
    split
    · left; simp [Station.counted]
    · left; simp [Station.counted, Station.noteEntry]
    · split
      · right; right; right; simp [Station.counted, Station.noteEntry, Station.stopWith, hs]
      · by_cases hr : st.state = .ready
        · right; left
          simp [Station.counted, Station.noteEntry, Station.addHolds, hr]
        · right; right; left
          simp [Station.counted, Station.noteEntry, Station.addHolds, hr, hs]
    · right; right; right; simp [Station.counted, Station.noteEntry, Station.stopWith, hs]

/-- A raising counts its condition (R121): the count rises by one, up to 65535, and the others stay. -/
theorem Station.raise_counts :
    (st.raise table e).record.counts =
      st.record.counts.set e.kind.number (min Config.maxCount (st.record.counts[e.kind.number] + 1)) := by
  unfold Station.raise
  split
  · rfl
  · unfold Station.applyDisposition
    split
    · rfl
    · rfl
    · split
      · rfl
      · unfold Station.addHolds
        split <;> rfl
    · rfl

@[simp] theorem Work.raise_st (w : Work) : (w.raise table e).st = w.st.raise table e := rfl
@[simp] theorem Work.raise_closed (w : Work) : (w.raise table e).closed = w.closed := rfl
@[simp] theorem Work.raise_noted (w : Work) :
    (w.raise table e).noted = (w.noted || w.st.raiseNotes table e.kind) := rfl

end Sys2Proof.Machine
end

