-- ==== Sys2Proof/Laws/Library.lean ====
section
/-! SUPPORT. Reference counts, runs of elements and the reading of element lists: one lemma for what each can do. -/

namespace Sys2Proof.Machine

/-! ## Reference counts (R116) -/

theorem dropRef_get {n : Nat} (v : Vector Nat n) (o : Option (Fin n)) (i : Fin n) :
    (dropRef v o)[i] = v[i] - (if o = some i then 1 else 0) := by
  cases o with
  | none => simp [dropRef]
  | some k =>
    simp only [dropRef, Fin.getElem_fin, Vector.getElem_set, Option.some.injEq, Fin.ext_iff]
    split <;> simp_all

theorem takeRef_get {n : Nat} (v : Vector Nat n) (o : Option (Fin n)) (i : Fin n) :
    (takeRef v o)[i] = v[i] + (if o = some i then 1 else 0) := by
  cases o with
  | none => simp [takeRef]
  | some k =>
    simp only [takeRef, Fin.getElem_fin, Vector.getElem_set, Option.some.injEq, Fin.ext_iff]
    split <;> simp_all

theorem moveRef_get {n : Nat} (v : Vector Nat n) (o o' : Option (Fin n)) (i : Fin n) :
    (moveRef v o o')[i] =
      if o = o' then v[i] else v[i] - (if o = some i then 1 else 0) + (if o' = some i then 1 else 0) := by
  unfold moveRef
  split
  · rfl
  · rw [takeRef_get, dropRef_get]

/-! ## Runs (R108, R110) -/

/-- What a run leaves at index `k`: an index the run does not reach keeps its element, one it reaches below `last` has the
element for it, and `last`, once reached, has the last element of the run. `get` reads the table, `P` is what the table
keeps (its length). -/
theorem writeRun_get {τ α : Type} {put : τ → Nat → α → τ} {get : τ → Nat → α} {P : τ → Prop} {last : Nat}
    (hp : ∀ t i e, P t → P (put t i e))
    (hg : ∀ t i e k, P t → i ≤ last → k ≤ last → get (put t i e) k = if i = k then e else get t k) :
    ∀ (es : List α) (t : τ) (i k : Nat), P t → k ≤ last →
      get (writeRun put last t i es) k =
        if k < last then (if i ≤ k then (es[k - i]?).getD (get t k) else get t k)
        else if i + es.length ≤ last then get t k else es.getLast?.getD (get t k) := by
  intro es
  induction es with
  | nil => intro t i k _ _; simp [writeRun]
  | cons e es ih =>
    intro t i k ht hk
    have hm : min i last ≤ last := Nat.min_le_right ..
    rw [writeRun, ih _ _ _ (hp _ _ _ ht) hk, hg _ _ _ _ ht hm hk]
    by_cases h : k < last
    · rw [if_pos h, if_pos h]
      rcases Nat.lt_trichotomy i k with hi | rfl | hi
      · have h1 : i + 1 ≤ k := hi
        have h2 : min i last ≠ k := by omega
        have h3 : k - i = (k - (i + 1)) + 1 := by omega
        rw [if_pos h1, if_pos (Nat.le_of_lt hi), if_neg h2, h3, List.getElem?_cons_succ]
      · have h2 : min i last = i := by omega
        simp [h2]
      · have h1 : ¬ i + 1 ≤ k := by omega
        have h2 : ¬ i ≤ k := by omega
        have h3 : min i last ≠ k := by omega
        rw [if_neg h1, if_neg h2, if_neg h3]
    · rw [if_neg h, if_neg h]
      have hkl : k = last := by omega
      cases es with
      | nil =>
        by_cases hi : i + 1 ≤ last
        · have h3 : min i last ≠ k := by omega
          simp [hi, h3]
        · have h3 : min i last = k := by omega
          simp [hi, h3]
      | cons e' es =>
        by_cases hi : i + 1 + (e' :: es).length ≤ last
        · have h3 : min i last ≠ k := by simp at hi; omega
          have h4 : i + (e :: e' :: es).length ≤ last := by simp at hi ⊢; omega
          rw [if_pos hi, if_pos h4, if_neg h3]
        · have h4 : ¬ i + (e :: e' :: es).length ≤ last := by simp at hi ⊢; omega
          rw [if_neg hi, if_neg h4]
          simp [List.getLast?_cons]

/-- A run keeps what each of its writes keeps. -/
theorem writeRun_keeps {τ α : Type} {put : τ → Nat → α → τ} {P : τ → Prop} {last : Nat}
    (hp : ∀ t i e, P t → P (put t i e)) :
    ∀ (es : List α) (t : τ) (i : Nat), P t → P (writeRun put last t i es)
  | [], _, _, ht => ht
  | _ :: es, _, _, ht => writeRun_keeps hp es _ _ (hp _ _ _ ht)

/-! ## Element lists -/

/-- Reading every element of a list succeeds exactly when each one reads. -/
theorem readAll_eq_some {α β : Type} {f : α → Option β} :
    ∀ {l : List α} {r : List β}, readAll f l = some r ↔ l.map f = r.map some
  | [], r => by cases r <;> simp [readAll]
  | a :: as, r => by
    cases r with
    | nil => simp [readAll, Option.bind_eq_some_iff]
    | cons b bs =>
      simp only [readAll, Option.bind_eq_some_iff, Option.map_eq_some_iff, List.map_cons, List.cons.injEq]
      constructor
      · rintro ⟨x, hx, y, hy, rfl, rfl⟩
        exact ⟨hx, readAll_eq_some.mp hy⟩
      · rintro ⟨hx, hy⟩
        exact ⟨b, hx, bs, readAll_eq_some.mpr hy, rfl, rfl⟩

/-- Two-byte elements laid end to end read back as they are. -/
@[simp] theorem elementPairs_flatMap (pairs : List (Byte × Byte)) :
    elementPairs (pairs.flatMap fun p => [p.1, p.2]) = some pairs := by
  induction pairs with
  | nil => rfl
  | cons p ps ih => simp [elementPairs, ih]

/-- An entry number written as a byte reads back. -/
theorem entryOf_byteOf {n : Nat} (hn : n ≤ 256) (e : Fin n) : entryOf n (byteOf e.val) = some e := by
  have h : e.val < 256 := by omega
  simp [entryOf, byteOf, Nat.mod_eq_of_lt h]

/-! ## Frame bytes -/

@[simp] theorem sumBytes_append_neg (bs : List Byte) : sumBytes (bs ++ [- sumBytes bs]) = 0 := by
  simp [sumBytes, List.foldl_append]

/-- A record's bytes sum to 0 (R183). -/
@[simp] theorem sumBytes_withCheck (bs : List Byte) : sumBytes (withCheck bs) = 0 := sumBytes_append_neg bs

/-- An order frame's bytes sum to the sum its head gives (R179). -/
theorem sumBytes_frameBytes (l : Lead) (data : List Byte) (sum : Byte) : sumBytes (frameBytes l data sum) = sum := by
  simp only [frameBytes, sumBytes, List.foldl_append, List.foldl_cons, List.foldl_nil]
  bv_omega

end Sys2Proof.Machine
end

