-- ==== Sys2Proof/Laws/LineWork.lean ====
section
/-! SUPPORT. What the work of a PRINT, MOVE or END JOB can do to a station, said once: it is made of eight kinds of change,
and whatever each of them keeps, the work keeps. -/

namespace Sys2Proof.Machine

/-- `P` survives every change the work of a line can make to a station, under the tables `t`. -/
structure LineStable (t : Tools) (P : Station → Prop) : Prop where
  /-- A condition is raised. -/
  raise : ∀ e st, P st → P (st.raise t.table e)
  /-- The pending line changes. -/
  strikes : ∀ v st, P st → P { st with strikes := v }
  /-- A committed line is counted. -/
  lines : ∀ c st, P st → P { st with counters := { st.counters with lines := c } }
  /-- It goes to the open page, and is counted if it is a listing. -/
  place : ∀ (p : Page) (c : Word) (st : Station), P st → P { st with
    openPage := some p, counters := { st.counters with listings := c } }
  /-- The open page closes and joins the queue. -/
  close : ∀ (p : Page) (k : Option Key) (st : Station), P st → P { st with
    openPage := none, queue := st.queue ++ [p], carry := k }
  /-- A blank form is reported. -/
  blank : ∀ st, P st → P (st.addReport st.blankSummary)
  /-- The page number advances. -/
  count : ∀ st, P st → P st.countPage
  /-- The carriage moves. -/
  carriage : ∀ n b st, P st → P { st with line := n, overflow := b }

variable {t : Tools} {P : Station → Prop} {w : Work}

/-! ## Parts that only raise conditions -/

theorem LineStable.raiseWork (h : LineStable t P) (e : CondEntry) (hw : P w.st) : P (w.raise t.table e).st :=
  h.raise e _ hw

/-- Visiting the windows keeps what raising a condition keeps. -/
theorem visitWindows_keeps {Q : Work → Prop} (hr : ∀ e w, Q w → Q (w.raise t.table e)) (cells : List Cell) :
    ∀ (ws : List Window) (cs : List ColumnRecord) (i : Nat) (w : Work), Q w → Q (visitWindows t cells i ws cs w).2
  | [], _, _, _, hw => by simpa [visitWindows] using hw
  | _ :: _, [], _, _, hw => by simpa [visitWindows] using hw
  | x :: ws, c :: cs, i, w, hw => by
    unfold visitWindows
    split
    · refine visitWindows_keeps hr cells ws cs (i + 1) _ ?_
      unfold raiseOutcome
      split
      · exact hr _ _ hw
      · exact hr _ _ hw
      · exact hw
    · exact visitWindows_keeps hr cells ws cs (i + 1) _ hw

/-- The seam chain keeps what raising a condition keeps. -/
theorem seamChain_keeps {Q : Work → Prop} (hr : ∀ e w, Q w → Q (w.raise t.table e)) :
    ∀ (ws : List Window) (cs : List ColumnRecord) (i : Nat) (k : Option Key) (w : Work),
      Q w → Q (seamChain t i ws cs k w).2
  | [], _, _, _, _, hw => by simpa [seamChain] using hw
  | _ :: _, [], _, _, _, hw => by simpa [seamChain] using hw
  | x :: ws, c :: cs, i, k, w, hw => by
    unfold seamChain
    split
    · refine seamChain_keeps hr ws cs (i + 1) _ _ ?_
      split
      · exact hr _ _ hw
      · exact hw
    · exact seamChain_keeps hr ws cs (i + 1) _ _ hw

theorem raiseAt_keeps {Q : Work → Prop} (hr : ∀ e w, Q w → Q (w.raise t.table e)) (k : Condition) (p : Option Nat)
    (hw : Q w) : Q (raiseAt t k p w) := by
  cases p with
  | none => exact hw
  | some n => exact hr _ _ hw

/-! ## Recording strikes -/

/-- Recording print bytes keeps what raising a condition and changing the pending line keep. -/
theorem strikeFrom_keeps {Q : Work → Prop} (hr : ∀ e w, Q w → Q (w.raise t.table e))
    (hs : ∀ v w, Q w → Q { w with st := { w.st with strikes := v } }) :
    ∀ (bytes : List Byte) (p : Nat) (w : Work), Q w → Q (strikeFrom t p bytes w)
  | [], _, _, hw => hw
  | b :: bs, p, w, hw => by
    refine strikeFrom_keeps hr hs bs (p + 1) _ ?_
    split
    · exact hw
    · unfold addStrike
      split
      · exact hw
      · split
        · exact hs _ _ hw
        · split
          · exact hw
          · exact hr _ _ (hs _ _ hw)

theorem recordStrikes_keeps {Q : Work → Prop} (hr : ∀ e w, Q w → Q (w.raise t.table e))
    (hs : ∀ v w, Q w → Q { w with st := { w.st with strikes := v } }) (bytes : List Byte) (hw : Q w) :
    Q (recordStrikes t bytes w) := by
  unfold recordStrikes
  refine raiseAt_keeps hr _ _ (raiseAt_keeps hr _ _ (strikeFrom_keeps hr hs _ _ _ ?_))
  split
  · exact hr _ _ hw
  · exact hw

theorem LineStable.recordStrikes (h : LineStable t P) (bytes : List Byte) (hw : P w.st) :
    P (recordStrikes t bytes w).st :=
  recordStrikes_keeps (Q := fun w => P w.st) (fun e _ => h.raise e _) (fun v _ => h.strikes v _) bytes hw

/-! ## The commit -/

theorem LineStable.takeLine (h : LineStable t P) (cells : List Cell) (p : Page) (hw : P w.st) :
    P (takeLine t cells p w).st := by
  have hv : ∀ cs w', P w'.st → P (visitWindows t cells 0 t.layout.windows cs w').2.st := fun cs w' =>
    visitWindows_keeps (Q := fun w => P w.st) (fun e _ => h.raise e _) cells _ cs 0 w'
  unfold Sys2Proof.Machine.takeLine
  lift_lets
  intro line y foot placed dropped w1 p1 v p2 st
  have h1 : P w1.st := by
    dsimp only [w1]
    split
    · exact h.raise _ _ hw
    · split
      · exact hw
      · exact h.raise _ _ hw
  have h2 : P v.2.st := hv _ _ h1
  split
  · exact h.place _ _ _ h2
  · exact h.place _ v.2.st.counters.listings _ h2

theorem LineStable.commit (h : LineStable t P) (hw : P w.st) : P (commit t w).st := by
  have h1 : ∀ p, P (raiseAt t .strikeClash p w).st := fun p =>
    raiseAt_keeps (Q := fun w => P w.st) (fun e _ => h.raise e _) _ p hw
  unfold Sys2Proof.Machine.commit
  simp only
  refine h.strikes _ _ ?_
  split
  · exact h1 _
  · exact h.takeLine _ _ (h.lines _ _ (h1 _))

/-! ## Closing and moving -/

theorem LineStable.closePage (h : LineStable t P) (endJob : Bool) (p : Page) (hw : P w.st) :
    P (closePage t endJob p w).st := by
  unfold Sys2Proof.Machine.closePage completePage
  split
  · exact h.close _ w.st.carry _ hw
  · have hr : P (seamChain t 0 t.layout.windows p.columns w.st.carry w).2.st :=
      seamChain_keeps (Q := fun w => P w.st) (fun e _ => h.raise e _) _ _ _ _ _ hw
    generalize seamChain t 0 t.layout.windows p.columns w.st.carry w = r at hr
    exact h.close (Page.finish t.layout endJob { p with seamBreaks := p.seamBreaks + r.1.1 }) r.1.2 r.2.st hr

theorem LineStable.formEnd (h : LineStable t P) (hw : P w.st) : P (formEnd t w).st := by
  unfold Sys2Proof.Machine.formEnd
  refine h.carriage 1 false _ (h.count _ ?_)
  split
  · exact h.closePage _ _ hw
  · exact h.blank _ hw

theorem LineStable.spaceStep (h : LineStable t P) (hw : P w.st) : P (spaceStep t w).st := by
  have h1 : ∀ w' : Work, P w'.st → P { w'.st with overflow := true } := fun w' => h.carriage w'.st.line true _
  unfold Sys2Proof.Machine.spaceStep
  simp only
  by_cases hl : w.st.line < t.tape.formLength
  · simp only [if_pos hl]
    split
    · exact h.carriage _ true _ hw
    · exact h.carriage _ w.st.overflow _ hw
  · simp only [if_neg hl]
    split
    · exact h1 _ (h.formEnd hw)
    · exact h.formEnd hw

theorem LineStable.spaceSteps (h : LineStable t P) :
    ∀ (n : Nat) {w : Work}, P w.st → P (spaceSteps t n w).st
  | 0, _, hw => hw
  | n + 1, _, hw => h.spaceSteps n (h.spaceStep hw)

theorem LineStable.skipTo (h : LineStable t P) (k : Nat) (hw : P w.st) : P (skipTo t k w).st := by
  unfold Sys2Proof.Machine.skipTo
  split
  · exact h.carriage _ w.st.overflow _ hw
  · simp only
    split
    · exact h.carriage _ (Sys2Proof.Machine.formEnd t w).st.overflow _ (h.formEnd hw)
    · exact h.formEnd hw

theorem LineStable.carry (h : LineStable t P) (m : Motion) (hw : P w.st) : P (carry t m w).st := by
  unfold Sys2Proof.Machine.carry
  split
  · split
    · exact h.spaceSteps _ (h.commit hw)
    · exact h.skipTo _ (h.commit hw)
  · split
    · exact hw
    · exact h.raise _ _ hw

/-- The work of a taken PRINT or MOVE keeps what is stable under a line's changes. -/
theorem LineStable.lineWork (h : LineStable t P) (c : Control) (bytes : Option (List Byte)) {st : Station} (hst : P st) :
    P (lineWork t c bytes st).st := by
  unfold Sys2Proof.Machine.lineWork
  simp only
  split
  · exact h.carry _ hst
  · split
    · exact h.recordStrikes _ (h.carry _ hst)
    · exact h.carry _ (h.recordStrikes _ hst)

/-- The work of END JOB keeps what is stable under a line's changes. -/
theorem LineStable.endJobWork (h : LineStable t P) {st : Station} (hst : P st) : P (endJobWork t st).st := by
  have h1 := h.commit (w := ⟨st, false, false⟩) hst
  unfold Sys2Proof.Machine.endJobWork
  simp only
  split
  · exact h1
  · exact h.count _ (h.closePage _ _ h1)

/-! ## What the work of a line never changes -/

/-- Selections, job, expected bit, quota, timer setting and match value. -/
theorem lineStable_settings (t : Tools) (x : Selections × Half × Bool × Nat × Nat × Word) :
    LineStable t fun st => st.settings = x where
  raise e st h := (Station.raise_settings t.table e st).trans h
  strikes _ _ h := h
  lines _ _ h := h
  place _ _ _ h := h
  close _ _ _ h := h
  blank _ h := h
  count _ h := h
  carriage _ _ _ h := h

/-- The queue before stays at the front of the queue. -/
theorem lineStable_queue (t : Tools) (q : List Page) : LineStable t fun st => q <+: st.queue where
  raise e st h := by simpa using h
  strikes _ _ h := h
  lines _ _ h := h
  place _ _ _ h := h
  close p _ st h := h.trans (List.prefix_append ..)
  blank _ h := h
  count _ h := h
  carriage _ _ _ h := h

/-- PAGES IMAGED. -/
theorem lineStable_imaged (t : Tools) (n : Word) : LineStable t fun st => st.counters.imaged = n where
  raise e st h := by simpa using h
  strikes _ _ h := h
  lines _ _ h := h
  place _ _ _ h := h
  close _ _ _ h := h
  blank _ h := h
  count _ h := h
  carriage _ _ _ h := h

@[simp] theorem lineWork_settings (t : Tools) (c : Control) (bytes : Option (List Byte)) (st : Station) :
    (lineWork t c bytes st).st.settings = st.settings :=
  (lineStable_settings t st.settings).lineWork c bytes rfl

@[simp] theorem endJobWork_settings (t : Tools) (st : Station) : (endJobWork t st).st.settings = st.settings :=
  (lineStable_settings t st.settings).endJobWork rfl

/-! ## The idle timer after a line (R21, R22) -/

theorem Station.restartIdle_eq (st : Station) :
    st.restartIdle = { st with idle := if st.meetsRunning then .running else .off } := rfl

/-! ## The answers of PRINT and MOVE (R6) -/

/-- A PRINT or MOVE at a station is turned away without a change, or is a repeat, or is taken by a READY station whose
expected bit it carries and which has the slot it needs. -/
theorem Station.lineOrder_cases (t : Tools) (free seq : Bool) (control : Byte) (bytes : Option (List Byte)) (st : Station) :
    let r := st.lineOrder t free seq control bytes
    (r.1 = st ∧ (r.2 = .retry ∨ ∃ x, r.2 = .refused x)) ∨
    (r = repeatedLine t st ∧ st.state ≠ .unloaded ∧ seq ≠ st.expected) ∨
    (st.state = .ready ∧ seq = st.expected ∧
      ∃ c, Control.ofByte control = some c ∧ r = takeLineOrder t c bytes st ∧
        (st.needsSlot t c.motion (c.bytesBefore (bytes.getD [])) = true → free = true)) := by
  unfold Station.lineOrder
  split
  · exact .inl ⟨rfl, .inr ⟨_, rfl⟩⟩
  · rename_i c hc
    split
    · exact .inl ⟨rfl, .inr ⟨_, rfl⟩⟩
    · rename_i hu
      split
      · rename_i hs
        exact .inr (.inl ⟨rfl, hu, hs⟩)
      · rename_i hs
        have hs' : seq = st.expected := not_not.mp hs
        split
        · exact .inl ⟨rfl, .inr ⟨_, rfl⟩⟩
        · rename_i hst
          split
          · exact .inl ⟨rfl, .inl rfl⟩
          · rename_i hn
            refine .inr (.inr ⟨hst, hs', c, hc, rfl, ?_⟩)
            intro hneed
            simpa [hneed] using hn
        · exact .inl ⟨rfl, .inl rfl⟩

end Sys2Proof.Machine
end

