-- ==== Sys2Proof/Laws/Link.lean ====
section
/-! SUPPORT. What an order row does on a link that awaits a frame: the one lemma from which the statements about orders
start, and the answers of a frame by its order code. -/

namespace Sys2Proof.Machine

variable {s : State} {h : Head} {l : Lead} {data params : List Byte}

/-- On a link that awaits a frame, an order frame with at most 1023 data bytes is answered whole. -/
theorem State.receiveOrder_awaitLead (code : BitVec 5) (ha : s.link.receive = .awaitLead) (hl : data.length ≤ 1023) :
    s.receiveOrder h code data = s.answerFrame (leadOf h code) data h.sum := by
  simp only [State.receiveOrder, ha, Config.maxData, leadOf]
  exact if_pos hl

/-- An order row whose frame fits is answered whole on a link that awaits a frame, after the arbiter's choice if one is
due. -/
theorem exec_of_orderFrame {c : Instr} {f : OrderFrame} (hc : orderFrame c = some f)
    (ha : s.link.receive = .awaitLead) (hl : f.data.length ≤ 1023) :
    exec c s = .next (s.arbitrate.answerFrame f.lead f.data f.sum) := by
  have ha' : s.arbitrate.link.receive = .awaitLead := by rw [State.arbitrate_link, ha]
  cases c <;> simp only [orderFrame, Option.some.injEq, reduceCtorEq] at hc <;> subst hc <;>
    exact congrArg _ (State.receiveOrder_awaitLead (s := s.arbitrate) _ ha' hl)

/-- A frame with a right check byte is carried out and its answer owed (R170, R171). -/
theorem State.answerFrame_right :
    s.answerFrame l data 0 = (carryOut l data s).1.owe l (carryOut l data s).2 := by
  simp [State.answerFrame]

/-- A frame with a wrong check byte is answered FRAME ERROR, CHECK (R169). -/
theorem State.answerFrame_wrong {sum : Byte} (hs : sum ≠ 0) :
    s.answerFrame l data sum = s.owe l (.frameError .check) := by
  exact if_neg hs

/-- An order row with a right check byte is carried out and its answer owed, where no choice of the arbiter is due. -/
theorem exec_of_accepted {c : Instr} {f : OrderFrame} (hc : orderFrame c = some f) (ha : s.link.receive = .awaitLead)
    (hd : s.choiceDue = false) (hs : f.sum = 0) (hl : f.data.length ≤ 1023) :
    exec c s = .next ((carryOut f.lead f.data s).1.owe f.lead (carryOut f.lead f.data s).2) := by
  rw [exec_of_orderFrame hc ha hl, State.arbitrate_of_not_due _ hd, hs, State.answerFrame_right]

/-! ## The owner of each order code -/

@[simp] theorem carryOut_print : carryOut (leadOf h 0x01#5) data s = orderPrint h.station h.seq data s := rfl
@[simp] theorem carryOut_move : carryOut (leadOf h 0x02#5) data s = orderMove h.station h.seq data s := rfl
@[simp] theorem carryOut_select : carryOut (leadOf h 0x03#5) data s = orderSelect h.station data s := rfl
@[simp] theorem carryOut_loadDrum : carryOut (leadOf h 0x04#5) data s = orderLoadDrum data s := rfl
@[simp] theorem carryOut_loadTape : carryOut (leadOf h 0x05#5) data s = orderLoadTape data s := rfl
@[simp] theorem carryOut_loadLayout : carryOut (leadOf h 0x06#5) data s = orderLoadLayout data s := rfl
@[simp] theorem carryOut_loadCollation : carryOut (leadOf h 0x07#5) data s = orderLoadCollation data s := rfl
@[simp] theorem carryOut_loadConditions : carryOut (leadOf h 0x08#5) data s = orderLoadConditions data s := rfl
@[simp] theorem carryOut_station : carryOut (leadOf h 0x09#5) data s = orderStation h.station data s := rfl
@[simp] theorem carryOut_sense : carryOut (leadOf h 0x0A#5) data s = orderSense h.station data s := rfl
@[simp] theorem carryOut_report : carryOut (leadOf h 0x0B#5) data s = orderReport h.station data s := rfl
@[simp] theorem carryOut_device : carryOut (leadOf h 0x0C#5) data s = orderDevice data s := rfl
@[simp] theorem carryOut_echo : carryOut (leadOf h 0x0D#5) data s = orderEcho data s := rfl

/-! ## The owner of each sub-function -/

variable {i : StationId} (hp : params.length = 4)
include hp

theorem orderStation_beginJob : orderStation i (0x01#8 :: params) s = orderBeginJob i params s := by
  simp [orderStation, hp]
theorem orderStation_endJob : orderStation i (0x02#8 :: params) s = orderEndJob i params s := by
  simp [orderStation, hp]
theorem orderStation_hold : orderStation i (0x03#8 :: params) s = orderHold i params s := by
  simp [orderStation, hp]
theorem orderStation_release : orderStation i (0x04#8 :: params) s = orderRelease i params s := by
  simp [orderStation, hp]
theorem orderStation_stop : orderStation i (0x05#8 :: params) s = orderStop i params s := by
  simp [orderStation, hp]
theorem orderStation_reset : orderStation i (0x06#8 :: params) s = orderReset i params s := by
  simp [orderStation, hp]
theorem orderStation_park : orderStation i (0x07#8 :: params) s = orderPark i params s := by
  simp [orderStation, hp]
theorem orderStation_resume : orderStation i (0x08#8 :: params) s = orderResume i params s := by
  simp [orderStation, hp]
theorem orderStation_setQuota : orderStation i (0x09#8 :: params) s = orderSetQuota i params s := by
  simp [orderStation, hp]
theorem orderStation_setTimer : orderStation i (0x0A#8 :: params) s = orderSetTimer i params s := by
  simp [orderStation, hp]
theorem orderStation_setMatch : orderStation i (0x0B#8 :: params) s = orderSetMatch i params s := by
  simp [orderStation, hp]

/-- A STATION order carried out at the station alone is its function at the station. -/
theorem State.stationOrder_of_length (f : Byte → Byte → Byte → Byte → Station → Station × Answer) :
    ∃ a b c d, params = [a, b, c, d] ∧
      s.stationOrder i params f =
        (s.setStation i (f a b c d (s.station i)).1, (f a b c d (s.station i)).2) := by
  match params, hp with
  | [a, b, c, d], _ => exact ⟨a, b, c, d, rfl, rfl⟩

end Sys2Proof.Machine
end

