-- ==== Sys2Proof/Laws/PerInstr.lean ====
section
/-! SUPPORT. A fact about every command as syntax: a well-formed order's data fits one frame (R168, R179). One lemma per
constructor. -/

namespace Sys2Proof.Laws.FrameFits

open Sys2Proof Sys2Proof.Machine

/-- The frame of a well-formed order has at most 1023 data bytes. -/
def Statement (c : Instr) : Prop :=
  c.wellFormed = true → ∀ f, orderFrame c = some f → f.data.length ≤ 1023

/-- A command that is no order has no frame. -/
theorem of_none {c : Instr} (h : orderFrame c = none) : Statement c := by
  intro _ f hf
  simp [h] at hf

/-- An order whose data the check bounds. -/
theorem of_some {c : Instr} {g : OrderFrame} (h : orderFrame c = some g)
    (hb : c.wellFormed = true → g.data.length ≤ 1023) : Statement c := by
  intro hw f hf
  rw [h] at hf
  cases hf
  exact hb hw

theorem powerOn : Statement (.powerOn) := of_none rfl
theorem linkReset : Statement (.linkReset) := of_none rfl
theorem linkResetRelease : Statement (.linkResetRelease) := of_none rfl
theorem endingStatusRead : Statement (.endingStatusRead) := of_none rfl
theorem interByteTimerExpiry : Statement (.interByteTimerExpiry) := of_none rfl
theorem print (h : Head) (data : List Byte) : Statement (.print h data) :=
  of_some rfl (by simp [Instr.wellFormed])
theorem move (h : Head) (data : List Byte) : Statement (.move h data) :=
  of_some rfl (by simp [Instr.wellFormed]; omega)
theorem select (h : Head) (data : List Byte) : Statement (.select h data) :=
  of_some rfl (by simp [Instr.wellFormed]; omega)
theorem loadDrum (h : Head) (data : List Byte) : Statement (.loadDrum h data) :=
  of_some rfl (by simp only [Instr.wellFormed, elementLength, Bool.and_eq_true, decide_eq_true_eq]; omega)
theorem loadTape (h : Head) (data : List Byte) : Statement (.loadTape h data) :=
  of_some rfl (by simp only [Instr.wellFormed, elementLength, Bool.and_eq_true, decide_eq_true_eq]; omega)
theorem loadLayout (h : Head) (data : List Byte) : Statement (.loadLayout h data) :=
  of_some rfl (by
    simp only [Instr.wellFormed, layoutLength]
    split
    · simp only [Bool.and_eq_true, decide_eq_true_eq, beq_iff_eq]; omega
    · simp)
theorem loadCollation (h : Head) (data : List Byte) : Statement (.loadCollation h data) :=
  of_some rfl (by simp [Instr.wellFormed]; omega)
theorem loadConditions (h : Head) (data : List Byte) : Statement (.loadConditions h data) :=
  of_some rfl (by simp [Instr.wellFormed]; omega)
theorem beginJob (h : Head) (params : List Byte) : Statement (.beginJob h params) :=
  of_some rfl (by simp [Instr.wellFormed]; omega)
theorem endJob (h : Head) (params : List Byte) : Statement (.endJob h params) :=
  of_some rfl (by simp [Instr.wellFormed]; omega)
theorem stationHold (h : Head) (params : List Byte) : Statement (.stationHold h params) :=
  of_some rfl (by simp [Instr.wellFormed]; omega)
theorem stationRelease (h : Head) (params : List Byte) : Statement (.stationRelease h params) :=
  of_some rfl (by simp [Instr.wellFormed]; omega)
theorem stationStop (h : Head) (params : List Byte) : Statement (.stationStop h params) :=
  of_some rfl (by simp [Instr.wellFormed]; omega)
theorem stationReset (h : Head) (params : List Byte) : Statement (.stationReset h params) :=
  of_some rfl (by simp [Instr.wellFormed]; omega)
theorem stationPark (h : Head) (params : List Byte) : Statement (.stationPark h params) :=
  of_some rfl (by simp [Instr.wellFormed]; omega)
theorem stationResume (h : Head) (params : List Byte) : Statement (.stationResume h params) :=
  of_some rfl (by simp [Instr.wellFormed]; omega)
theorem setQuota (h : Head) (params : List Byte) : Statement (.setQuota h params) :=
  of_some rfl (by simp [Instr.wellFormed]; omega)
theorem setTimer (h : Head) (params : List Byte) : Statement (.setTimer h params) :=
  of_some rfl (by simp [Instr.wellFormed]; omega)
theorem setMatch (h : Head) (params : List Byte) : Statement (.setMatch h params) :=
  of_some rfl (by simp [Instr.wellFormed]; omega)
theorem sense (h : Head) (data : List Byte) : Statement (.sense h data) :=
  of_some rfl (by simp [Instr.wellFormed]; omega)
theorem report (h : Head) (data : List Byte) : Statement (.report h data) :=
  of_some rfl (by simp [Instr.wellFormed]; omega)
theorem echo (h : Head) (data : List Byte) : Statement (.echo h data) :=
  of_some rfl (by simp [Instr.wellFormed])
theorem attentionSetup (h : Head) (params : List Byte) : Statement (.attentionSetup h params) :=
  of_some rfl (by simp [Instr.wellFormed]; omega)
theorem imagerSetup (h : Head) (params : List Byte) : Statement (.imagerSetup h params) :=
  of_some rfl (by simp [Instr.wellFormed]; omega)
theorem deviceClear (h : Head) (params : List Byte) : Statement (.deviceClear h params) :=
  of_some rfl (by intro h; simp only [Instr.wellFormed, beq_iff_eq] at h; simp [h])
theorem libraryClear (h : Head) (params : List Byte) : Statement (.libraryClear h params) :=
  of_some rfl (by simp [Instr.wellFormed]; omega)
theorem idleTimerExpiry (station : StationId) : Statement (.idleTimerExpiry station) := of_none rfl
theorem rawLevelChange (line : Line) (level : Bool) : Statement (.rawLevelChange line level) := of_none rfl
theorem debouncedReadyFall : Statement (.debouncedReadyFall) := of_none rfl
theorem debouncedReadyRise : Statement (.debouncedReadyRise) := of_none rfl
theorem debouncedFaultRise : Statement (.debouncedFaultRise) := of_none rfl
theorem debouncedFaultFall : Statement (.debouncedFaultFall) := of_none rfl
theorem debouncedCoverChange (level : Bool) : Statement (.debouncedCoverChange level) := of_none rfl
theorem debouncedMediaLowChange (level : Bool) : Statement (.debouncedMediaLowChange level) := of_none rfl
theorem holdSwitchOn : Statement (.holdSwitchOn) := of_none rfl
theorem holdSwitchOff : Statement (.holdSwitchOff) := of_none rfl
theorem arbiterChoice : Statement (.arbiterChoice) := of_none rfl
theorem pageCloseSent : Statement (.pageCloseSent) := of_none rfl
theorem pageVoidSent : Statement (.pageVoidSent) := of_none rfl
theorem taken (sum : Byte) : Statement (.taken sum) := of_none rfl
theorem refused (reason : Byte) (sum : Byte) : Statement (.refused reason sum) := of_none rfl
theorem imaged (station : Byte) (page : Half) (sum : Byte) : Statement (.imaged station page sum) := of_none rfl
theorem spoiled (station : Byte) (page : Half) (sum : Byte) : Statement (.spoiled station page sum) := of_none rfl
theorem replyTimerExpiry : Statement (.replyTimerExpiry) := of_none rfl
theorem imagingTimerExpiry : Statement (.imagingTimerExpiry) := of_none rfl
theorem imagerLinkQuietTest (bytes : List Byte) : Statement (.imagerLinkQuietTest bytes) := of_none rfl
theorem byteTaken (b : Byte) : Statement (.byteTaken b) := of_none rfl

end Sys2Proof.Laws.FrameFits
end

