-- ==== Sys2Proof/Laws/Port.lean ====
section
/-! SUPPORT. The imager port: the page in flight, spoils, debounced changes, the arbiter and replies, one lemma for what each
can do. -/

namespace Sys2Proof.Machine

variable {s : State} {i : StationId} {p : Page} {rest : List Page}

/-! ## The page in flight -/

theorem State.flightPage_eq_some :
    s.flightPage = some (i, p) ↔ s.port.flight = some i ∧ (s.station i).queue.head? = some p := by
  simp only [State.flightPage, Option.bind_eq_some_iff, Option.map_eq_some_iff, Prod.mk.injEq]
  constructor
  · rintro ⟨j, hj, q, hq, rfl, rfl⟩
    exact ⟨hj, hq⟩
  · rintro ⟨hi, hp⟩
    exact ⟨i, hi, p, hp, rfl, rfl⟩

/-- The page in flight is the head of its owner's queue (R140). -/
theorem State.flightPage_of_queue (hf : s.port.flight = some i) (hq : (s.station i).queue = p :: rest) :
    s.flightPage = some (i, p) := by
  rw [State.flightPage_eq_some, hq]
  exact ⟨hf, rfl⟩

@[simp] theorem State.flightPage_of_none (hf : s.port.flight = none) : s.flightPage = none := by
  simp [State.flightPage, hf]

theorem Station.setHead_of_queue {st : Station} (q : Page) (hq : st.queue = p :: rest) :
    st.setHead q = { st with queue := q :: rest } := by
  simp [Station.setHead, hq]

/-! ## Spoils (R162) -/

theorem State.spoilFlight_none (timeout : Bool) (dest : PortState) (hf : s.flightPage = none) :
    s.spoilFlight timeout dest = { s with port := s.port.clearFlight dest } := by
  simp [State.spoilFlight, hf]

theorem State.spoilFlight_some (timeout : Bool) (dest : PortState) (hf : s.flightPage = some (i, p)) :
    s.spoilFlight timeout dest =
      { s.setStation i ((s.station i).spoilHead s.library.dispositions timeout p) with
        port := s.port.clearFlight dest } := by
  simp [State.spoilFlight, hf]

/-- A spoil changes the owner's queue head and raises conditions there; its other fields stay. -/
theorem Station.spoilHead_settings (table : Dispositions) (timeout : Bool) (p : Page) (st : Station) :
    (st.spoilHead table timeout p).settings = st.settings := by
  have h1 : (st.setHead p.spoil).settings = st.settings := by
    unfold Station.setHead
    split <;> rfl
  unfold Station.spoilHead
  simp only
  split <;> split <;> simp [h1]

theorem Station.spoilHead_queue (table : Dispositions) (timeout : Bool) {st : Station} (hq : st.queue = p :: rest) :
    (st.spoilHead table timeout p).queue = p.spoil :: rest := by
  unfold Station.spoilHead
  simp only [Station.setHead_of_queue _ hq]
  split <;> split <;> simp

/-! ## Debounced lines (R151 to R154) -/

theorem State.setDebounced_same {l : Line} {b : Bool} (h : s.port.debounced.get l = b) : s.setDebounced l b = s := by
  simp [State.setDebounced, h]

theorem State.debouncedEvent_same {l : Line} {b : Bool} (h : s.port.debounced.get l = b) :
    s.debouncedEvent l b = s := by
  simp [State.debouncedEvent, h]

/-- A move of the port at a debounced change leaves the lines, their setup and everything outside the port and the owner of
the page in flight alone. -/
theorem State.readyMove_keeps (b : Bool) :
    (s.readyMove b).parks = s.parks ∧ (s.readyMove b).library = s.library ∧ (s.readyMove b).pointer = s.pointer ∧
    (s.readyMove b).link = s.link ∧ (s.readyMove b).pending = s.pending ∧
    (s.readyMove b).port.debounced = s.port.debounced ∧ (s.readyMove b).port.raw = s.port.raw ∧
    (s.readyMove b).port.setup = s.port.setup ∧ (s.readyMove b).port.stray = s.port.stray := by
  have h : ∀ d, let t := s.spoilFlight false d
      t.parks = s.parks ∧ t.library = s.library ∧ t.pointer = s.pointer ∧ t.link = s.link ∧ t.pending = s.pending ∧
      t.port.debounced = s.port.debounced ∧ t.port.raw = s.port.raw ∧ t.port.setup = s.port.setup ∧
      t.port.stray = s.port.stray := by
    intro d
    unfold State.spoilFlight
    split <;> simp
  unfold State.readyMove
  split
  · simp
  · simp
  · simp
  · split
    · exact h _
    · simp
  · exact h _
  · exact h _
  · simp

theorem State.faultMove_keeps (b : Bool) :
    (s.faultMove b).parks = s.parks ∧ (s.faultMove b).library = s.library ∧ (s.faultMove b).pointer = s.pointer ∧
    (s.faultMove b).link = s.link ∧ (s.faultMove b).pending = s.pending ∧
    (s.faultMove b).port.debounced = s.port.debounced ∧ (s.faultMove b).port.raw = s.port.raw ∧
    (s.faultMove b).port.setup = s.port.setup ∧ (s.faultMove b).port.stray = s.port.stray := by
  have h : ∀ d, let t := s.spoilFlight false d
      t.parks = s.parks ∧ t.library = s.library ∧ t.pointer = s.pointer ∧ t.link = s.link ∧ t.pending = s.pending ∧
      t.port.debounced = s.port.debounced ∧ t.port.raw = s.port.raw ∧ t.port.setup = s.port.setup ∧
      t.port.stray = s.port.stray := by
    intro d
    unfold State.spoilFlight
    split <;> simp
  unfold State.faultMove
  split
  · simp
  · simp
  · split
    · exact h _
    · simp
  · exact h _
  · exact h _
  · simp

/-- The waiting commands stay through any debounced change. -/
theorem State.setDebounced_pending (l : Line) (b : Bool) : (s.setDebounced l b).pending = s.pending := by
  unfold State.setDebounced
  split
  · rfl
  · cases l <;> simp [State.lineEffect, State.readyMove_keeps, State.faultMove_keeps]

@[simp] theorem State.takeRaw_pending (l : Line) : (s.takeRaw l).pending = s.pending := by
  unfold State.takeRaw
  split
  · exact State.setDebounced_pending l _
  · rfl

/-! ## The arbiter (R140) -/

/-- The arbiter changes nothing, or starts sending the head of a station's queue. -/
theorem State.arbitrate_cases :
    s.arbitrate = s ∨
    ∃ i p rest, s.port.choosing = true ∧ s.nextServed = some i ∧ (s.station i).queue = p :: rest ∧
      s.arbitrate = { s.setStation i { s.station i with queue := { p with state := .sending } :: rest } with
        pointer := i
        port := { s.port with state := .sending, flight := some i, outgoing := p.records i, returned := false } } := by
  unfold State.arbitrate
  split
  · rename_i hc
    split
    · exact .inl rfl
    · rename_i i hi
      split
      · exact .inl rfl
      · rename_i p rest hq
        exact .inr ⟨i, p, rest, hc, hi, hq, by rw [Station.setHead_of_queue _ hq]⟩
  · exact .inl rfl

/-- The station served has a head that waits (R140). -/
theorem State.nextServed_ready (h : s.nextServed = some i) : (s.station i).headReady = true := by
  simpa using List.find?_some h

/-! ## Replies (R157, R158) -/

/-- A matching reply names the page in flight in IMAGING. -/
theorem State.matching_eq_some {station : Byte} {page : Half} :
    s.matching station page = some (i, p) ↔
      s.port.state = .imaging ∧ s.flightPage = some (i, p) ∧ byteOf i.val = station ∧ p.page = page := by
  unfold State.matching
  split
  · rename_i hs
    simp only [Option.filter_eq_some_iff, Bool.and_eq_true, beq_iff_eq, hs, true_and]
  · rename_i hs
    simp [hs]

theorem State.replyTaken_taken (h : s.port.state = .awaitingTaken) :
    s.replyTaken = { s with port := { s.port with
      state := .imaging, replyTimer := false, imagingTimer := some s.port.setup.imaging } } := if_pos h

theorem State.replyTaken_stray (h : s.port.state ≠ .awaitingTaken) : s.replyTaken = s.strayReply := if_neg h

@[simp] theorem State.checkedReply_right (take : State → State) : s.checkedReply 0 take = take s := rfl

theorem State.checkedReply_wrong {sum : Byte} (take : State → State) (h : sum ≠ 0) :
    s.checkedReply sum take = s.strayReply := if_neg h

/-- The waiting commands stay through any reply. -/
theorem State.spoilFlight_pending (timeout : Bool) (d : PortState) : (s.spoilFlight timeout d).pending = s.pending := by
  unfold State.spoilFlight
  split <;> simp

theorem State.replyTaken_pending : s.replyTaken.pending = s.pending := by
  unfold State.replyTaken
  split <;> simp

theorem State.replyRefused_pending : s.replyRefused.pending = s.pending := by
  unfold State.replyRefused
  split
  · split <;> simp
  · simp

theorem State.replyImaged_pending (a : Byte) (n : Half) : (s.replyImaged a n).pending = s.pending := by
  unfold State.replyImaged
  split <;> simp

theorem State.replySpoiled_pending (a : Byte) (n : Half) : (s.replySpoiled a n).pending = s.pending := by
  unfold State.replySpoiled
  split
  · simp
  · simp [State.spoilFlight_pending]

end Sys2Proof.Machine
end

