-- ==== Sys2Proof/Tests/Slice0.lean ====
section
/-! SUPPORT. Tests: the smoke test of WellFormed, small tests of one command each with results taken from the manual's
rules, tables and worked sequences, and for each statement with hypotheses a witness that they can all hold. -/

namespace Sys2Proof.Machine.Tests

open Sys2Proof Sys2Proof.Machine

set_option Elab.async false

/-! ## Small states -/

/-- A head for a station with sequence bit 0 and a right check byte. -/
def head (i : StationId) : Head := ⟨i, false, 0⟩

/-- Bytes 1 to 200 strike their own glyph, 0 is BLANK, 201 UNDERSCORE, 203 SUBSTITUTE 65, the others ABSENT. -/
def drum : DrumTable :=
  ⟨((DrumEntry.blank :: (List.range 200).map fun n => .glyph (Fin.ofNat 251 (n + 1))) ++
    [DrumEntry.underscore, .absent, .substitute 65] ++ List.replicate 52 DrumEntry.absent).toArray, by simp⟩

/-- The short tape of the worked sequence of chapter 2: F = 2, channel 1 at line 1, channel 12 at line 2. -/
def tape : Tape := ⟨2, .six, 12, [0x001, 0x800]⟩

def window (start outX : Nat) : Window := ⟨start, 32, outX, 0, 20, true, true⟩

/-- Layout entry 4 of the worked placement of chapter 4. -/
def layout : Layout :=
  ⟨10200, 13200, 480, 67, 240, 100, 10100, true, [window 1 100, window 34 2700, window 67 5300, window 100 7900]⟩

/-- The collation table of the worked case of chapter 5, letters at their ASCII codes: blank 1, A to Z 10 to 35,
apostrophe 0. The others take weight 100. -/
def coll : CollTable :=
  ⟨((List.range 251).map fun n =>
    if n = 0 then (1 : Byte) else if n = 39 then 0 else if 65 ≤ n ∧ n ≤ 90 then BitVec.ofNat 8 (n - 55) else 100).toArray,
   by simp⟩

def tools : Tools := ⟨drum, tape, layout, some coll, Dispositions.default⟩

/-- A library with entry 0 of each kind VALID and selected once, entry 1 of the tapes VALID and unselected. -/
def library : Library :=
  { Library.powerOn with
    drums := Library.powerOn.drums.set 0 (some drum)
    tapes := (Library.powerOn.tapes.set 0 (some tape)).set 1 (some tape)
    layouts := Library.powerOn.layouts.set 0 (some layout)
    colls := Library.powerOn.colls.set 0 (some coll)
    refs := ⟨#v[1, 0, 0, 0, 0, 0, 0, 0], #v[1, 0, 0, 0, 0, 0, 0, 0], #v[1, 0, 0, 0, 0, 0, 0, 0], #v[1, 0, 0, 0]⟩ }

def selected : Selections := ⟨some 0, some 0, some 0, some 0⟩

def readyStation : Station := { Station.powerOn with state := .ready, sel := selected, page := 17 }

/-- Station 0 is `f` of a READY station with every selection made. -/
def part (f : Station → Station) : State := { State.reset with library := library }.setStation 0 (f readyStation)

def ready : State := part id

/-- A glyph cell. -/
def glyph (g : Code) : Cell := ⟨some g, none, false, false⟩

def composed (st : SlotState) (n : Half) : Page :=
  { Page.opening readyStation layout with state := st, page := n, lines := [⟨1, 480, [⟨100, glyph 65⟩], []⟩] }

/-- A READY station with an open page of one line, its carriage at line 2 under the overflow mark, as in chapter 2's
worked sequence. -/
def onPage (st : Station) : Station := { st with openPage := some (composed .opened 17), line := 2, overflow := true }

def struck (l : List Strike) (st : Station) : Station := { st with strikes := st.strikes.set 0 ⟨l, false⟩ }

/-- The port in `state`, with READY high, sending or having sent station 1's page 88. -/
def port (state : PortState) (flight : Bool) : Port :=
  { Port.powerOn ⟨true, false, false, false, false⟩ with
    state := state
    flight := if flight then some 1 else none
    replyTimer := state == .awaitingTaken
    imagingTimer := if state = .imaging then some 120 else none
    debounced := ⟨true, false, false, false, false⟩ }

/-- A part whose port is in `state`, station 1 owning page 88 in slot state `slot` and page 89 behind it, and station 3
page 8, with the pointer at 1. -/
def atImager (state : PortState) (flight : Bool) (slot : SlotState) : State :=
  { (ready.setStation 1 { Station.powerOn with queue := [composed slot 88, composed .waiting 89] }).setStation 3
      { Station.powerOn with queue := [composed .waiting 8] } with
    port := port state flight
    pointer := 1 }

def idle : State := atImager .idle false .waiting
/-- The port IDLE with READY high, and no page waiting anywhere: no choice of the arbiter is due. -/
def quiet : State := { ready with port := port .idle false }

def sending : State := atImager .sending true .sending
def awaiting : State := atImager .awaitingTaken true .awaiting
def imaging : State := atImager .imaging true .awaiting

/-- The state a command leaves. -/
def after (c : Instr) (s : State) : State :=
  match exec c s with
  | .next t => t
  | _ => s

/-- The ending status owed, whole. -/
def owed (s : State) : List Byte :=
  match s.link.receive with
  | .statusOwed b rest => b :: rest
  | _ => []

/-- Result, reason and flags of the ending status an order is answered with. -/
def answer (c : Instr) (s : State) : List Byte := ((owed (after c s)).drop 1).take 3

/-! ## WellFormed refuses the ill-formed -/

/-- Each order with one data byte too few, too many, or an odd element. -/
def illFormed : List Instr :=
  [.print (head 0) [], .move (head 0) [], .select (head 0) [0, 0, 0], .loadDrum (head 0) [0, 0, 1],
    .loadTape (head 0) [0, 2, 6, 12, 1, 0], .loadLayout (head 0) (List.replicate 16 0),
    .loadCollation (head 0) (List.replicate 251 0), .loadConditions (head 0) (List.replicate 17 0),
    .beginJob (head 0) [0, 0, 0], .endJob (head 0) [], .stationHold (head 0) [0], .stationRelease (head 0) [0],
    .stationStop (head 0) [0], .stationReset (head 0) [0], .stationPark (head 0) [0], .stationResume (head 0) [0, 0],
    .setQuota (head 0) [0], .setTimer (head 0) [0], .setMatch (head 0) [0, 0, 0], .sense (head 0) [],
    .report (head 0) [0, 0], .attentionSetup (head 0) [0], .imagerSetup (head 0) (List.replicate 11 0),
    .deviceClear (head 0) [0], .libraryClear (head 0) [0], .echo (head 0) (List.replicate 1024 0)]

theorem test_wellFormed_refuses : illFormed.all (fun c => !c.wellFormed) = true := by decide +kernel

theorem test_wellFormed_takes :
    ([.print (head 0) [1], .move (head 0) [0x41], .loadDrum (head 0) [0, 0], .loadTape (head 0) [0, 2, 6, 12, 1, 0, 1],
      .loadLayout (head 0) (List.replicate 14 0 ++ [1, 0] ++ List.replicate 7 0), .deviceClear (head 0) [],
      .echo (head 0) (List.replicate 1023 0), .byteTaken 7, .arbiterChoice] : List Instr).all
      Instr.wellFormed = true := by decide +kernel

/-! ## PRINT, MOVE and the carriage -/

/-- The worked sequence of chapter 2, step 1: SPACE 3 from line 2 of a two-line form closes page 17, ends blank form 18
and stops at line 1 of form 19, the mark clear; DONE with PAGE CLOSED. -/
theorem test_print_space3_across_forms :
    let s := part onPage
    let t := after (.print (head 0) [0x03, 65]) s
    ((t.station 0).line, (t.station 0).overflow, (t.station 0).page, (t.station 0).expected) = (1, false, 19, true) ∧
    (t.station 0).queue.map (fun p => (p.page, p.lines.length)) = [(17, 2)] ∧
    (t.station 0).reports.map (fun r => (r.page, r.blank)) = [(18, true)] ∧
    answer (.print (head 0) [0x03, 65]) s = [0x00, 0x00, 0x81] := by decide +kernel

/-- A fourth strike is dropped with EXCESS STRIKE, one byte through BLANK strikes nothing (R48, R54). -/
theorem test_print_excess :
    let t := after (.print (head 0) [0x00, 66, 0]) (part (struck [.glyph 65, .glyph 65, .glyph 65]))
    ((t.station 0).strikes[0], (t.station 0).strikes[1], (t.station 0).record.counts[2]) =
      (⟨[.glyph 65, .glyph 65, .glyph 65], true⟩, ⟨[], false⟩, 1) := by decide +kernel

/-- SKIP 12 from line 1 stops at line 2 and does not set the overflow mark (R35, R36). -/
theorem test_move_skip :
    let t := after (.move (head 0) [0x4C]) ready
    ((t.station 0).line, (t.station 0).overflow, (t.station 0).page) = (2, false, 17) := by decide +kernel

/-- Chapter 2's SKIP 5: no line holds channel 5, so RUNAWAY holds the station, and the MOVE is DONE with CONDITION and HELD. -/
theorem test_move_runaway :
    let s := part onPage
    let t := after (.move (head 0) [0x45]) s
    ((t.station 0).state, (t.station 0).line, (t.station 0).holds, (t.station 0).record.counts[5]) =
      (.held, 2, ⟨false, true, false⟩, 1) ∧
    answer (.move (head 0) [0x45]) s = [0x00, 0x00, 0xD8] := by decide +kernel

/-- Classification, from the table of chapter 3. -/
theorem test_classify :
    [[], [.glyph 83], [.glyph 83, .glyph 83], [.glyph 83, .underscore, .glyph 83], [.underscore, .underscore],
      [.glyph 69, .glyph 200, .glyph 69], [.glyph 65, .glyph 66, .glyph 67]].map classify =
    [⟨none, none, false, false⟩, ⟨some 83, none, false, false⟩, ⟨some 83, none, true, false⟩,
      ⟨some 83, none, true, true⟩, ⟨none, none, false, true⟩, ⟨some 69, some 200, false, false⟩,
      ⟨some 65, some 66, false, false⟩] := by decide +kernel

/-- Rows and positions of the worked placement of chapter 4. -/
theorem test_placement :
    [1, 2, 4, 61, 127, 128, 130].map (plateRow layout .eight) = [480, 581, 782, 6510, 13143, 13244, 13445] ∧
    [34, 35, 36, 37, 38, 39, 40].map (layout.plateX (window 34 2700)) = [2700, 2780, 2861, 2941, 3022, 3102, 3182] ∧
    layout.cellWidth = 80 ∧ layout.windows.map layout.spanEnd = [2672, 5272, 7872, 10472] ∧ layout.valid = true := by
  decide +kernel

/-- Keys of the worked case of chapter 5: O'BRIEN J is greater than OBRIEN A, and the apostrophe stays in the text. -/
theorem test_keys :
    let field (l : List Code) : List Cell := l.map fun g => if g = 0 then ⟨none, none, false, false⟩ else glyph g
    let a := formKey coll (field [79, 39, 66, 82, 73, 69, 78, 0, 74, 0, 0])
    let b := formKey coll (field [79, 66, 82, 73, 69, 78, 0, 65, 0, 0])
    a = [24, 11, 27, 18, 14, 23, 1, 19] ∧ b = [24, 11, 27, 18, 14, 23, 1, 10] ∧ compareKeys b a = .lt ∧
    formText (field [79, 39, 66, 82, 73, 69, 78, 0, 74, 0, 0]) = [79, 39, 66, 82, 73, 69, 78, 0, 74] := by
  decide +kernel

/-! ## SELECT and the loads -/

/-- A completing SELECT takes an UNLOADED station to READY and counts its references (R7, R116). -/
theorem test_select :
    let t := after (.select (head 2) [0, 1, 0, 0xFE]) ready
    ((t.station 2).state, t.library.refs.drum[0], t.library.refs.tape[1], (t.station 2).sel) =
      (.ready, 2, 1, ⟨some 0, some 1, some 0, none⟩) := by decide +kernel

/-- R108's table: 8 elements from 250 leave index 255 the eighth, with LOAD STUCK. -/
theorem test_loadDrum_sticks :
    let els : List Byte := (List.range 8).flatMap fun n => [1, BitVec.ofNat 8 (101 + n)]
    let c : Instr := .loadDrum (head 1) ([0, 250] ++ els)
    (after c ready).library.drums[0].map (fun d => (d[249], d[250], d[254], d[255])) =
      some (.absent, .glyph 101, .glyph 105, .glyph 108) ∧
    answer c ready = [0x00, 0x00, 0x02] := by decide +kernel

/-- Chapter 6's amendment in small: three sets from line 2 of a two-line tape leave line 2 the third. -/
theorem test_loadTape_sticks :
    let c : Instr := .loadTape (head 0) [0, 2, 6, 12, 2, 0, 2, 0, 4, 8, 0]
    (after c ready).library.tapes[0].map Tape.stops = some [0x001, 0x800] ∧
    answer c ready = [0x00, 0x00, 0x02] := by decide +kernel

theorem test_loadTape_inUse :
    answer (.loadTape (head 0) [0, 2, 6, 12, 2, 0, 2]) (part onPage) = [0x02, 0x09, 0x10] := by decide +kernel

def layoutData (outX : Byte) : List Byte :=
  [3, 0x27, 0xD8, 0x33, 0x90, 0x01, 0xE0, 67, 0, 240, 0, 100, 0x27, 0x74, 2, 1,
    1, 32, 0, 100, 0, 20, 3, 34, 32, 0x0A, outX, 0, 20, 3]

theorem test_loadLayout :
    (after (.loadLayout (head 0) (layoutData 0x8C)) ready).library.layouts[3] =
      some { layout with windows := [window 1 100, window 34 2700] } := by decide +kernel

/-- A second window from 2671 overlaps the span 100 to 2672 (R70). -/
theorem test_loadLayout_overlap :
    (answer (.loadLayout (head 0) (layoutData 0x6F)) ready).take 1 = [0x02] := by decide +kernel

theorem test_loadCollation :
    ((after (.loadCollation (head 0) (3 :: (List.range 251).map (BitVec.ofNat 8))) ready).library.colls[3]).map
      (fun t => (t[(0 : Code)], t[(250 : Code)])) = some (0, 250) := by decide +kernel

theorem test_loadConditions :
    (after (.loadConditions (head 0) (List.replicate 15 0 ++ [3])) ready).library.dispositions[15] = .stop ∧
    (after (.loadConditions (head 0) (List.replicate 15 0 ++ [4])) ready).library.dispositions = Dispositions.default := by
  decide +kernel

theorem test_libraryClear :
    (after (.libraryClear (head 0) [1, 1]) ready).library.tapes[1] = none ∧
    (after (.libraryClear (head 0) [1, 0]) ready).library.tapes[0] = some tape := by decide +kernel

/-! ## STATION orders -/

theorem test_beginJob :
    ((after (.beginJob (head 0) [0x03, 0x2C, 0, 41]) ready).station 0).job = 812 ∧
    ((after (.beginJob (head 0) [0x03, 0x2C, 0, 0]) ready).station 0).job = 0 := by decide +kernel

/-- END JOB with a page open drains; with nothing composed it raises DRAINED at once (R9). -/
theorem test_endJob :
    ((after (.endJob (head 0) [0, 0, 0, 0]) (part onPage)).station 0).state = .draining ∧
    ((after (.endJob (head 0) [0, 0, 0, 0]) ready).station 0).causes.drained = true := by decide +kernel

theorem test_stationHold :
    ((after (.stationHold (head 0) [0, 0, 0, 0]) ready).station 0).state = .held := by decide +kernel

theorem test_stationRelease :
    ((after (.stationRelease (head 0) [0, 0, 0, 0])
      (part fun st => { st with state := .held, holds := ⟨true, true, false⟩ })).station 0).state = .ready := by
  decide +kernel

theorem test_stationStop :
    let t := after (.stationStop (head 0) [0, 0, 0, 0]) ready
    ((t.station 0).state, (t.station 0).stopCode, (t.station 0).causes.stopped) = (.stopped, .operator, true) := by
  decide +kernel

theorem test_stationReset :
    let t := after (.stationReset (head 0) [0, 0, 0, 0]) (part onPage)
    ((t.station 0).state, (t.station 0).page, (t.station 0).openPage) = (.ready, 1, none) := by decide +kernel

/-- PARK then RESUME on another station, as in chapter 1's worked sequence. -/
theorem test_parkAndResume :
    let s := part fun st => { st with job := 812, page := 41, timerSetting := 30, expected := true }
    let p := after (.stationPark (head 0) [1, 0, 0, 0]) s
    let t := after (.stationResume (head 1) [1, 0, 0, 0]) { p with link := Link.powerOn }
    ((p.station 0).state, (p.station 0).page, p.parks[1].map (fun r => (r.job, r.timerSetting))) =
      (.unloaded, 1, some (812, 30)) ∧
    ((t.station 1).state, (t.station 1).job, (t.station 1).page, (t.station 1).expected, t.parks[1]) =
      (.ready, 812, 41, false, none) ∧ t.library.refs.tape[0] = 1 := by decide +kernel

theorem test_settings :
    ((after (.setQuota (head 0) [0, 0, 0, 0]) ready).station 0).quota = 1 ∧
    ((after (.setQuota (head 0) [200, 0, 0, 0]) ready).station 0).quota = 12 ∧
    ((after (.setTimer (head 0) [255, 0, 0, 0]) (part onPage)).station 0).idle = .running ∧
    ((after (.setMatch (head 0) [0, 0, 1, 2]) ready).station 0).matchValue = 258 := by decide +kernel

/-! ## Reading orders and DEVICE orders -/

/-- Chapter 10's exchange: a SENSE names a cause of another station and does not clear it. -/
theorem test_sense :
    let s := ready.setStation 2 { Station.powerOn with causes := ⟨true, false, false, false, false⟩ }
    ((after (.sense (head 0) [1]) s).station 2).causes.conditionNoted = true ∧
    ((after (.sense (head 2) [1]) s).station 2).causes.conditionNoted = false ∧ (s.senseReply 0).length = 98 := by
  decide +kernel

theorem test_report :
    let s := part fun st => { st with reports := [st.blankSummary, st.blankSummary] }
    ((after (.report (head 0) [1]) s).station 0).reports.length = 1 ∧
    (owed (after (.report (head 0) [1]) s)).length = 61 + 7 := by decide +kernel

theorem test_echo : ((owed (after (.echo (head 0) [7, 9]) ready)).drop 6).take 2 = [7, 9] := by decide +kernel

theorem test_attentionSetup :
    (after (.attentionSetup (head 0) [0x41, 1]) ready).link.enable =
      ⟨true, false, false, false, false, false, true⟩ ∧
    (after (.attentionSetup (head 0) [0x80, 1]) ready).link.activeHigh = false := by decide +kernel

theorem test_imagerSetup :
    let data (hi lo : Byte) : List Byte := [0, 1, 2, 3, 0, 0, 1, 2, 3, 0, hi, lo]
    (after (.imagerSetup (head 0) (data 0x02 0x58)) ready).port.setup.imaging = 600 ∧
    (after (.imagerSetup (head 0) (data 0x02 0x59)) ready).port.setup.imaging = 120 := by decide +kernel

/-- DEVICE CLEAR in SENDING leaves the port SENDING with PAGE VOID due (R156, R165). -/
theorem test_deviceClear :
    let t := after (.deviceClear (head 0) []) sending
    (t.port.state, t.port.flight, t.pointer, (t.station 1).queue) = (.sending, none, 3, []) ∧
    t.port.outgoing = [[0x05, 1, 0, 88, 0xA2]] := by decide +kernel

/-! ## Resets and the link -/

theorem test_powerOn :
    let t := after .powerOn imaging
    (t.port.state, t.pointer, (t.station 1).queue, (t.station 0).quota) = (.offline, 3, [], 4) := by decide +kernel

theorem test_linkReset :
    let t := after .linkReset (part fun st => { st with expected := true })
    ((t.station 0).expected, t.link.receive) = (false, .linkHeld) ∧
    (after .linkResetRelease t).link.receive = .awaitLead := by decide +kernel

/-- Chapter 10's exchange: a frame cut short is answered FRAME ERROR, TRUNCATED, and a status byte can then be read. -/
theorem test_truncated :
    let s := after .interByteTimerExpiry (after (.byteTaken 0) (after (.byteTaken 0x21) ready))
    (owed s).take 2 = [0x21, 0x03] ∧ (after .endingStatusRead s).link.lastRead = some 0x21 ∧
    (after (.byteTaken 9) s).link.receive = s.link.receive := by decide +kernel

/-- A MOVE frame byte by byte: lead 02h, length 1, SPACE 1, and the check byte that makes the sum 0. -/
theorem test_byteTaken :
    let t := ([0x02, 0, 1, 0x01, 0xFC].map Instr.byteTaken).foldl (fun s c => after c s) ready
    ((t.station 0).line, (owed t).take 2) = (2, [0x02, 0x00]) := by decide +kernel

/-! ## Idle timers, lines and the HOLD switch -/

theorem test_idleTimerExpiry :
    let t := after (.idleTimerExpiry 0) (part fun st => { onPage st with timerSetting := 30, idle := .running })
    ((t.station 0).idle, (t.station 0).record.counts[11], (t.station 0).record.last.map CondEntry.line) =
      (.expired, 1, some 2) := by decide +kernel

theorem test_rawLevelChange :
    (after (.rawLevelChange .cover true) ready).port.debounced.cover = false ∧
    (after (.rawLevelChange .cover true) { ready with port := { ready.port with
      setup := { ready.port.setup with debounce := ⟨.off, .off, .off, .off, .off⟩ } } }).port.debounced.cover = true := by
  decide +kernel

/-- Chapter 9's step 5: READY falls in SENDING, the page goes back SPOILED and the port OFFLINE, with IMAGER CHANGE. -/
theorem test_readyFall :
    let t := after .debouncedReadyFall sending
    (t.port.state, (t.station 1).queue.map (fun p => (p.state, p.spoils)), t.link.causes.imagerChange) =
      (.offline, [(.spoiled, 1), (.waiting, 0)], true) := by decide +kernel

theorem test_readyRise : (after .debouncedReadyRise ready).port.state = .idle := by decide +kernel

theorem test_faultRise_fall :
    (after .debouncedFaultRise quiet).port.state = .faulted ∧
    (after .debouncedFaultFall (after .debouncedFaultRise quiet)).port.state = .idle := by decide +kernel

theorem test_cover_mediaLow :
    (after (.debouncedCoverChange true) imaging).port.state = .imaging ∧
    (after (.debouncedMediaLowChange true) imaging).port.debounced.mediaLow = true := by decide +kernel

theorem test_holdSwitch :
    let t := after .holdSwitchOn ready
    ((t.station 0).state, (t.station 1).state, (t.station 1).holds.panel) = (.held, .unloaded, true) ∧
    ((after .holdSwitchOff t).station 0).state = .ready := by decide +kernel

/-! ## The arbiter and the imager -/

/-- Chapter 9's step 1: from the pointer at 1, station 2 has nothing, so station 3 is chosen. -/
theorem test_arbiterChoice :
    let t := after .arbiterChoice idle
    (t.pointer, t.port.state, t.port.flight, (t.station 3).queue.map Page.state) = (3, .sending, some 3, [.sending]) := by
  decide +kernel

/-- COVER rises while a choice is due: the choice was made at the moment its conditions held, and stands (R141). -/
theorem test_choice_before_cover :
    let t := after (.debouncedCoverChange true) idle
    (t.pointer, t.port.state, t.port.flight, t.port.debounced.cover) = (3, .sending, some 3, true) := by decide +kernel

/-- READY falls with an IMAGED reply: the reply is taken first and the fall finds the port IDLE with no page to spoil, though
page 89 waits (R161); with the arbiter's choice between them page 8 of station 3 is sent, and spoils. -/
theorem test_readyFall_with_imaged :
    let s := after (.imaged 1 88 0) imaging
    let t := after .debouncedReadyFall s
    let u := after .debouncedReadyFall (after .arbiterChoice s)
    (t.port.state, t.port.flight, t.pointer, (t.station 3).queue.map (fun p => (p.state, p.spoils))) =
      (.offline, none, 1, [(.waiting, 0)]) ∧
    (u.port.state, u.pointer, (u.station 3).queue.map (fun p => (p.state, p.spoils))) =
      (.offline, 3, [(.spoiled, 1)]) := by decide +kernel

/-- FAULT rises with a REFUSED reply: to FAULTED with no page spoiled (R161). -/
theorem test_faultRise_with_refused :
    let t := after .debouncedFaultRise (after (.refused 1 0) awaiting)
    (t.port.state, t.port.flight, (t.station 1).queue.map (fun p => (p.state, p.spoils))) =
      (.faulted, none, [(.waiting, 0)]) := by decide +kernel

theorem test_pageCloseSent :
    let t := after .pageCloseSent sending
    (t.port.state, t.port.replyTimer) = (.awaitingTaken, true) := by decide +kernel

theorem test_pageVoidSent : (after .pageVoidSent (after (.deviceClear (head 0) []) sending)).port.state = .idle := by
  decide +kernel

theorem test_taken :
    (after (.taken 0) awaiting).port.imagingTimer = some 120 ∧ (after (.taken 0) imaging).port.stray = 1 := by
  decide +kernel

/-- Chapter 7's step 2: a refusal at a station that holds CONDITION stops it with SECOND CONDITION. -/
theorem test_refused :
    let s := awaiting.setStation 1 { awaiting.station 1 with state := .held, holds := ⟨false, true, false⟩ }
    let t := after (.refused 1 0) s
    ((t.station 1).state, (t.station 1).stopCode, (t.station 1).queue.length,
      (t.station 1).reports.map (fun r => (r.page, r.refused))) =
      (.stopped, .secondCondition, 1, [(88, true)]) := by decide +kernel

theorem test_imaged :
    let t := after (.imaged 1 88 0) imaging
    ((t.station 1).counters.imaged, (t.station 1).queue.map Page.page, t.port.state) = (1, [89], .idle) ∧
    (after (.imaged 1 89 0) imaging).port.stray = 1 := by decide +kernel

theorem test_spoiled :
    ((after (.spoiled 1 88 0) imaging).station 1).queue.map (fun p => (p.state, p.spoils)) =
      [(.spoiled, 1), (.waiting, 0)] := by decide +kernel

theorem test_replyTimerExpiry :
    let t := after .replyTimerExpiry awaiting
    (t.port.state, (t.station 1).record.counts[14]) = (.offline, 1) := by decide +kernel

theorem test_imagingTimerExpiry :
    let t := after .imagingTimerExpiry imaging
    (t.port.state, (t.station 1).record.counts[14]) = (.offline, 1) := by decide +kernel

/-- Two whole replies, then an unknown type byte: TAKEN acts, a second TAKEN is stray, the rest counts once. -/
theorem test_quietTest :
    let t := after (.imagerLinkQuietTest [0x81, 0x7F, 0x81, 0x7F, 0x99, 0x81]) awaiting
    (t.port.state, t.port.stray) = (.imaging, 2) := by decide +kernel

/-! ## The queue -/

theorem test_step :
    (match step { ready with pending := [.echo (head 0) [], .linkReset] } with
     | .next t => t.pending
     | _ => []) = [.linkReset] := by decide +kernel

/-! ## Witnesses: the hypotheses of each statement hold together, for each clause -/

/-- A legal part at work: station 0 composes, station 1's page is at the imager, commands wait. -/
def working : State := { (part onPage) with pending := [.move (head 0) [0x03], .arbiterChoice] }

theorem working_legal : working.legal = true := by decide +kernel

theorem working_steps : ∃ t, step working = .next t := ⟨_, rfl⟩

theorem witness_StepRunsFrontCommand :
    working.pending = [.move (head 0) [0x03], .arbiterChoice] ∧ ready.pending = [] := by decide +kernel

theorem witness_StepKeepsBounds :
    (working.strikesBounded && working.reportsBounded) = true ∧ ∃ t, step working = .next t :=
  ⟨by decide +kernel, working_steps⟩

theorem witness_StepKeepsStatesAndHolds :
    (working.stopCodesAgree && working.holdsAgree) = true ∧ ∃ t, step working = .next t :=
  ⟨by decide +kernel, working_steps⟩

theorem witness_StepKeepsIdleTimers : working.idleAgrees = true ∧ ∃ t, step working = .next t :=
  ⟨by decide +kernel, working_steps⟩

theorem witness_StepKeepsPagesAscending : working.pagesAscend = true ∧ ∃ t, step working = .next t :=
  ⟨by decide +kernel, working_steps⟩

theorem witness_StepKeepsStoreBounded : working.storeBounded = true ∧ ∃ t, step working = .next t :=
  ⟨by decide +kernel, working_steps⟩

theorem witness_StepKeepsFlight :
    working.flightAgrees = true ∧ sending.flightAgrees = true ∧ awaiting.flightAgrees = true ∧
    imaging.flightAgrees = true ∧ ∃ t, step working = .next t :=
  ⟨by decide +kernel, by decide +kernel, by decide +kernel, by decide +kernel, working_steps⟩

theorem witness_StepKeepsReferences : working.refsAgree = true ∧ ∃ t, step working = .next t :=
  ⟨by decide +kernel, working_steps⟩

theorem witness_StepKeepsSelectionsValid :
    (working.refsAgree && working.selectionsValid) = true ∧ ∃ t, step working = .next t :=
  ⟨by decide +kernel, working_steps⟩

theorem witness_StepKeepsLinesInForms :
    (working.refsAgree && working.selectionsValid && working.linesInForms) = true ∧ ∃ t, step working = .next t :=
  ⟨by decide +kernel, working_steps⟩

theorem witness_StepKeepsInterByteTimer : working.timerAgrees = true ∧ ∃ t, step working = .next t :=
  ⟨by decide +kernel, working_steps⟩

/-- The longest and the shortest frame. -/
theorem witness_OrderIsItsBytes :
    ready.link.receive = .awaitLead ∧
    (orderFrame (.echo (head 0) (List.replicate 1023 0))).map (fun f => decide (f.data.length ≤ 1023)) = some true ∧
    (orderFrame (.deviceClear (head 0) [])).map (fun f => decide (f.data.length ≤ 1023)) = some true := by
  decide +kernel

/-- A MOVE to an UNLOADED station is REFUSED. -/
theorem witness_UndoneOrderChangesNothing :
    ∃ (f : OrderFrame) (t : State) (result : Byte) (rest : List Byte),
      orderFrame (.move (head 2) [0x01]) = some f ∧ ready.link.receive = .awaitLead ∧ ready.choiceDue = false ∧
      f.data.length ≤ 1023 ∧
      exec (.move (head 2) [0x01]) ready = .next t ∧ t.link.receive = .statusOwed f.lead.toByte (result :: rest) ∧
      result ≠ 0x00 :=
  ⟨⟨leadOf (head 2) 0x02, [0x01], 0⟩, after (.move (head 2) [0x01]) ready, 0x02, [0x04, 0x00, 0x00, 0x00, 0x78],
    rfl, rfl, by decide +kernel, by decide, rfl, by decide +kernel, by decide⟩

/-- Both clauses. -/
theorem witness_OrderReachesOnlyItsOwner :
    ready.link.receive = .awaitLead ∧ ready.choiceDue = false ∧ (∃ t, exec (.report (head 0) [8]) ready = .next t) ∧
    (orderFrame (.report (head 0) [8])).map (fun f => decide (f.lead.code ∈ [0x01, 0x02, 0x03, 0x09, 0x0A, 0x0B])) =
      some true ∧
    (orderFrame (.echo (head 0) [])).map (fun f => decide (f.lead.code ∈ [0x04, 0x05, 0x06, 0x07, 0x08, 0x0D])) =
      some true :=
  ⟨rfl, by decide +kernel, ⟨_, rfl⟩, by decide +kernel, by decide +kernel⟩

/-- A wrong sum, and a right sum with one weight too many. -/
theorem witness_UnfitFramesAnswered :
    ready.link.receive = .awaitLead ∧ ready.choiceDue = false ∧
    (orderFrame (.loadCollation ⟨0, false, 1⟩ [])).map (fun f => decide (f.sum ≠ 0 ∧ f.data.length ≤ 1023)) = some true ∧
    (orderFrame (.loadCollation (head 0) (List.replicate 253 0))).map
      (fun f => decide (f.sum = 0 ∧ f.data.length ≤ 1023)) = some true ∧
    (Instr.loadCollation (head 0) (List.replicate 253 0)).wellFormed = false := by decide +kernel

/-- The status of a STOPPED station with PANEL present and the mark set; a page with one guide and one without. -/
theorem witness_FramesDecodeAndSum :
    (let s := part fun st => { onPage st with state := .stopped, holds := ⟨false, false, true⟩ };
      s.statusTail (leadOf (head 0) 0x01) { Answer.refused .stopped with reply := [7] } =
        [0x02, 0x05, 0x70, 0x00, 0x01, 0x07, 0x80]) ∧
    (composed .waiting 88).closeRecord ∈ (composed .waiting 88).records 1 ∧ (composed .waiting 88).firstPlaced = none ∧
    (composed .waiting 88).lastPlaced = none ∧
    ({ composed .waiting 88 with firstPlaced := some ⟨[65], 100⟩ } : Page).firstPlaced.isSome = true := by decide +kernel

/-- A part in a given receive state. -/
def receiving (r : Receive) : State := ready.setReceive r true

/-- Every receive state; the last data byte of 1023, the check byte of 1023 and of none, right and wrong, of an unknown code. -/
theorem witness_ByteTakenFollowsReceiveState :
    ready.link.receive = .awaitLead ∧ ready.choiceDue = false ∧
    (receiving (.receiving 0x0D [])).choiceDue = false ∧
    (receiving (.receiving 0x0D [])).link.receive = .receiving 0x0D [] ∧
    (receiving (.receiving 0x0D [0x03])).link.receive = .receiving 0x0D [0x03] ∧
    (1023 < (be16 0x04 0x00).toNat ∧ ¬ 1023 < (be16 0x03 0xFF).toNat) ∧
    (List.replicate 1022 (0 : Byte)).length < (be16 0x03 0xFF).toNat ∧
    (List.replicate 1023 (0 : Byte)).length = (be16 0x03 0xFF).toNat ∧ ([] : List Byte).length = (be16 0 0).toNat ∧
    sumBytes (0x0E :: 0 :: 0 :: ([] ++ [0xF2])) = 0 ∧ sumBytes (0x0E :: 0 :: 0 :: ([] ++ [0xF3])) ≠ 0 ∧
    ((Lead.ofByte 0x09).code = 0x09 ∧ sumBytes (0x09 :: 0 :: 5 :: ([0x0C, 0, 0, 0, 0] ++ [0xE6])) = 0 ∧
      sumBytes (0x09 :: 0 :: 0 :: ([] ++ [0xF7])) = 0 ∧ (Lead.ofByte 0x0C).code = 0x0C ∧
      sumBytes (0x0C :: 0 :: 0 :: ([] ++ [0xF4])) = 0 ∧ sumBytes (0x0C :: 0 :: 1 :: ([0x05] ++ [0xEE])) = 0) ∧
    0x0E ≤ (Lead.ofByte 0x0E).code.toNat ∧ (Lead.ofByte 0xE0).code = 0x00 ∧
    (receiving (.discarding 1)).link.receive = .discarding 1 ∧
    (receiving (.statusOwed 1 [])).link.receive = .statusOwed 1 [] ∧
    (receiving .linkHeld).link.receive = .linkHeld := by decide +kernel

theorem witness_TimerExpiryAndReads :
    (∀ r, (receiving r).choiceDue = false) ∧ ready.choiceDue = false ∧
    (receiving (.receiving 7 [])).link.interByte = true ∧ (receiving (.receiving 7 [])).link.receive = .receiving 7 [] ∧
    (receiving (.discarding 7)).link.interByte = true ∧ (receiving (.discarding 7)).link.receive = .discarding 7 ∧
    (receiving (.statusOwed 7 [])).link.receive = .statusOwed 7 [] ∧
    (receiving (.statusOwed 7 [9])).link.receive = .statusOwed 7 [9] ∧
    (∀ b rest, ready.link.receive ≠ .statusOwed b rest) :=
  ⟨fun _ => rfl, by decide +kernel, rfl, rfl, rfl, rfl, rfl, rfl, by intro b rest h; exact absurd h (by simp [show ready.link.receive = .awaitLead from rfl])⟩

/-- A held and an open link, with a choice due and without. -/
theorem witness_LinkResetAndRelease :
    (receiving .linkHeld).link.receive = .linkHeld ∧ (receiving .linkHeld).choiceDue = false ∧
    idle.link.receive = .awaitLead ∧ idle.choiceDue = true := by decide +kernel

/-! ### Stations -/

def inState (x : StationState) : State := part fun st => { st with state := x }

theorem witness_HoldAddsOrder : ready.accepts (head 0) ∧ [(0 : Byte), 0, 0, 0].length = 4 := by decide +kernel

theorem witness_ReleaseAndStop :
    ready.accepts (head 0) ∧ (ready.station 0).state ≠ .held ∧
    (let held (panel : Bool) := part fun st => { st with state := .held, holds := ⟨true, true, panel⟩ };
      ((held true).accepts (head 0) ∧ ((held true).station 0).holds.panel = true) ∧
      (held false).accepts (head 0) ∧ ((held false).station 0).state = .held ∧
      ((held false).station 0).holds.panel = false ∧ ((held false).station 0).idle = .off) ∧
    (ready.accepts (head 1) ∧ (ready.station 1).state = .unloaded) ∧
    ((inState .stopped).accepts (head 0) ∧ ((inState .stopped).station 0).state = .stopped) ∧
    ((inState .draining).accepts (head 0) ∧ ((inState .draining).station 0).state = .draining) := by decide +kernel

theorem witness_StationResetStartsAfresh : (part onPage).accepts (head 0) ∧ [(0 : Byte), 0, 0, 0].length = 4 := by
  decide +kernel

theorem witness_BeginJobStartsCounting :
    ready.accepts (head 0) ∧ be16 0 0 = 0 ∧ be16 0xFF 0xFF ≠ 0 ∧
    ((inState .held).accepts (head 0) ∧ ((inState .held).station 0).state = .held) ∧
    ((inState .draining).accepts (head 0) ∧ ((inState .draining).station 0).state = .draining) ∧
    ((part onPage).accepts (head 0) ∧ ((part onPage).station 0).state = .ready ∧
      ((part onPage).station 0).openPage.isSome = true) ∧
    (ready.station 0).state = .ready ∧ (ready.station 0).openPage = none ∧ (ready.station 0).hasStrikes = false := by
  decide +kernel

/-- A station with pending strikes whose quota is used up by pages in its queue. -/
def noSlot : State :=
  part fun st => struck [.glyph 65] { st with quota := 1, queue := [composed .waiting 16] }

theorem witness_EndJobFinishesTheJob :
    ((inState .held).accepts (head 0) ∧ ((inState .held).station 0).state = .held) ∧
    (ready.accepts (head 1) ∧ (ready.station 1).state = .unloaded) ∧
    (noSlot.accepts (head 0) ∧ (noSlot.station 0).state = .ready ∧ (noSlot.station 0).hasStrikes = true ∧
      (noSlot.station 0).openPage = none ∧ noSlot.canOpen 0 = false) ∧
    (let s := part (struck [.glyph 65]);
      s.accepts (head 0) ∧ (s.station 0).state = .ready ∧ (s.station 0).hasStrikes = true ∧ s.canOpen 0 = true) ∧
    ((part onPage).accepts (head 0) ∧ ((part onPage).station 0).state = .ready ∧
      ((part onPage).station 0).openPage = some (composed .opened 17)) ∧
    (ready.accepts (head 0) ∧ (ready.station 0).openPage = none ∧ (ready.station 0).hasStrikes = false) ∧
    (let s := { ready with library := { library with dispositions := Vector.replicate 16 .note } };
      s.accepts (head 0) ∧ ∀ k : Fin 16, s.library.dispositions[k] ≠ .hold ∧ s.library.dispositions[k] ≠ .stop) := by
  decide +kernel

/-- Park slot 3 and a record in it; the tape of one line fewer than the record's line and one as long. -/
theorem witness_ParkAndResumeMoveTheContext :
    (ready.accepts (head 0) ∧ (ready.station 0).state = .ready ∧ (ready.station 0).openPage = none ∧
      (ready.station 0).hasStrikes = false ∧ ready.parks[(3 : Fin 4)] = none) ∧
    (let r : ParkRecord := { ready.station 0 |>.parkRecord with line := 2 };
      let s := { ready with parks := ready.parks.set 3 (some r) };
      s.accepts (head 1) ∧ (s.station 1).state = .unloaded ∧ (s.station 1).openPage = none ∧
      (s.station 1).hasStrikes = false ∧ s.parks[(3 : Fin 4)] = some r ∧ r.sel.tape = some 0 ∧
      s.library.tapes[(0 : Fin 8)] = some tape ∧ s.accepts (head 0) ∧ (s.station 0).state = .ready ∧
      (s.station 0).busy = false ∧ s.parks[(3 : Fin 4)].isSome = true) ∧
    (4 ≤ (4 : Byte).toNat ∧ 2 ≤ (2 : Byte).toNat ∧ (1 : Byte).toNat ≤ 1) ∧
    ((inState .held).accepts (head 0) ∧ ((inState .held).station 0).state ≠ .ready ∧
      ((inState .held).station 0).state ≠ .unloaded) ∧
    ((part onPage).accepts (head 0) ∧ ((part onPage).station 0).state = .ready ∧
      ((part onPage).station 0).busy = true) ∧
    ready.parks[(0 : Fin 4)] = none := by decide +kernel

theorem witness_SettingsAreWritten : ready.accepts (head 0) := by decide +kernel

/-- Every field an entry; every field KEEP or NONE. -/
theorem witness_SelectReplacesSelections :
    ready.accepts (head 0) ∧ (ready.station 0).state ≠ .draining ∧ (ready.station 0).openPage = none ∧
    (ready.station 0).hasStrikes = false ∧ ready.library.drums[(0 : Fin 8)].isSome = true ∧
    ready.library.tapes[(1 : Fin 8)].isSome = true ∧ ready.library.layouts[(0 : Fin 8)].isSome = true ∧
    ready.library.colls[(0 : Fin 4)].isSome = true ∧ (ready.station 0).line = 1 ∧
    (ready.accepts (head 3) ∧ (ready.station 3).state ≠ .draining ∧ (ready.station 3).line = 1) ∧
    (8 ≤ (0xFE : Byte).toNat ∧ (0xFE : Byte) ≠ 0xFF ∧ 4 ≤ (4 : Byte).toNat ∧ (4 : Byte) ≠ 0xFE ∧ (4 : Byte) ≠ 0xFF) ∧
    ((inState .draining).accepts (head 0) ∧ ((inState .draining).station 0).state = .draining) ∧
    ((part onPage).accepts (head 0) ∧ ((part onPage).station 0).busy = true) ∧
    (ready.station 0).busy = false ∧ ready.library.drums[(7 : Fin 8)] = none ∧
    (let s := part fun st => { st with line := 2 };
      s.accepts (head 0) ∧ (s.station 0).busy = false ∧ s.library.tapes[(1 : Fin 8)].isSome = true ∧
      some 1 ≠ (s.station 0).sel.tape ∧ (s.station 0).line ≠ 1) := by decide +kernel

/-! ### The library -/

/-- Whole and amending, the most elements a frame holds and none. -/
theorem witness_LoadDrumWritesItsRun :
    ready.accepts (head 0) ∧ (List.replicate 510 ((0x01 : Byte), (0xFA : Byte))).length ≤ 510 ∧
    ((List.replicate 510 ((0x01 : Byte), (0xFA : Byte))).map fun p => drumEntryOf p.1 p.2) =
      (List.replicate 510 (DrumEntry.glyph 250)).map some ∧
    ready.drumInUse 0 = false ∧ ready.library.drums[(0 : Fin 8)].isSome = true ∧
    (([] : List (Byte × Byte)).map fun p => drumEntryOf p.1 p.2) = ([] : List DrumEntry).map some ∧
    (8 ≤ (8 : Byte).toNat ∧ 5 ≤ (5 : Byte).toNat ∧ 251 ≤ (0xFB : Byte).toNat) ∧
    ready.library.drums[(7 : Fin 8)] = none ∧
    ((part onPage).accepts (head 0) ∧ (part onPage).library.drums[(0 : Fin 8)].isSome = true ∧
      (part onPage).drumInUse 0 = true) := by decide +kernel

theorem witness_LoadTapeWritesItsRun :
    ready.accepts (head 0) ∧ (List.replicate 509 (0 : StopSet)).length ≤ 509 ∧ ready.tapeInUse 0 = false ∧
    ready.tapeInUse 7 = false ∧
    (∃ t, ready.library.tapes[(0 : Fin 8)] = some t ∧ t.formLength = 2 ∧ t.pitch = .six ∧ t.overflow = 12 ∧
      t.stops.length = 2) ∧
    (192 < (193 : Byte).toNat ∧ 12 < (13 : Byte).toNat ∧ 16 ≤ (16 : Byte).toNat ∧ ¬ 16 ≤ (15 : Byte).toNat) ∧
    ready.library.tapes[(7 : Fin 8)] = none ∧
    (let s := part fun st => { st with line := 2 };
      s.accepts (head 0) ∧ s.library.tapes[(0 : Fin 8)] = some tape ∧ s.tapeInUse 0 = true ∧ tape.formLength ≠ 3) :=
  ⟨by decide +kernel, by decide +kernel, by decide +kernel, by decide +kernel,
   ⟨tape, by decide +kernel, rfl, rfl, rfl, rfl⟩, by decide, by decide +kernel, by decide +kernel⟩

theorem witness_WholeLoadsReplace :
    layout.valid = true ∧ Layout.valid { layout with windows := [window 1 100, window 33 100] } = false ∧
    ready.accepts (head 0) ∧
    windowsOf [1, 32, 0, 100, 0, 20, 3] = some [window 1 100] ∧
    Layout.valid { layout with windows := [window 1 100] } = true ∧ ready.layoutInUse 0 = false ∧
    (List.replicate 251 (0xFF : Byte)).length = 251 ∧ ready.collInUse 0 = false ∧
    (∀ b ∈ List.replicate 15 (0 : Byte) ++ [3], b.toNat ≤ 3) ∧
    (∃ b ∈ List.replicate 15 (0 : Byte) ++ [4], 4 ≤ b.toNat) ∧
    Layout.valid { layout with windows := [window 1 100, window 32 5300] } = false ∧
    ([1, 32, 0, 100, 0, 20, 3] : List Byte).length = 7 * 1 ∧ (byteAt [1, 32, 0, 100, 0, 20, 3] 6).toNat ≤ 3 ∧
    (8 ≤ (8 : Byte).toNat ∧ (0x02 : Byte) ≠ 0x00 ∧ (0x02 : Byte) ≠ 0x01 ∧ 4 ≤ (4 : Byte).toNat ∧
      4 ≤ (byteAt [1, 32, 0, 100, 0, 20, 4] (7 * 0 + 6)).toNat) ∧
    ((part onPage).accepts (head 0) ∧ (part onPage).layoutInUse 0 = true ∧ (part onPage).collInUse 0 = true) := by
  decide +kernel

/-- A used and an unused entry, a kind and an entry that name nothing. -/
theorem witness_LibraryClearEmpties :
    ready.accepts (head 0) ∧ ready.library.refs.tape[(0 : Fin 8)] ≠ 0 ∧ ready.library.refs.tape[(1 : Fin 8)] = 0 ∧
    4 ≤ (0x04 : Byte).toNat ∧ 8 ≤ (0x08 : Byte).toNat ∧ 4 ≤ (0x04 : Byte).toNat := by decide +kernel

theorem witness_UsedEntriesNeverChange :
    (part onPage).refsAgree = true ∧ (∃ t, exec (.loadTape (head 0) [0, 2, 6, 12, 1]) (part onPage) = .next t) ∧
    (part onPage).drumInUse 0 = true ∧ (part onPage).tapeInUse 0 = true ∧ (part onPage).layoutInUse 0 = true ∧
    (part onPage).collInUse 0 = true :=
  ⟨by decide +kernel, ⟨_, rfl⟩, by decide +kernel, by decide +kernel, by decide +kernel, by decide +kernel⟩

/-! ### Reading orders and device orders -/

theorem witness_ReadingOrdersReply :
    ready.accepts (head 0) ∧ 1 ≤ (1 : Byte).toNat ∧ (8 : Byte).toNat ≤ 8 ∧ 8 < (9 : Byte).toNat ∧
    (List.replicate 1023 (0 : Byte)).length ≤ 1023 := by decide +kernel

theorem witness_AttentionSetupReplaces :
    ready.accepts (head 0) ∧ (0x7F : Byte).getLsbD 7 = false ∧ (0x80 : Byte).getLsbD 7 = true ∧
    (0x02 : Byte) ≠ 0x00 ∧ (0x02 : Byte) ≠ 0x01 := by decide +kernel

/-- READY of an IDLE port is high and its raw level low; debounce code 0 is off. -/
theorem witness_ImagerSetupReplaces :
    (let s := { quiet with port := { quiet.port with raw := ⟨false, false, false, false, false⟩ } };
      s.accepts (head 0) ∧ s.port.debounced.get .ready ≠ s.port.raw.get .ready ∧ debounceOf 0 = some .off) ∧
    ready.accepts (head 0) ∧ (∀ b ∈ [(0 : Byte), 1, 2, 3, 0, 0, 1, 2, 3, 0], b.toNat ≤ 3) ∧
    1 ≤ (be16 0x00 0x01).toNat ∧ (be16 0x02 0x58).toNat ≤ 600 ∧ 600 < (be16 0x02 0x59).toNat ∧
    (be16 0x00 0x00).toNat = 0 ∧ ¬ (4 : Byte).toNat ≤ 3 := by decide +kernel

/-- All three port clauses. -/
theorem witness_DeviceClearClears :
    sending.accepts (head 0) ∧ sending.port.state = .sending ∧ sending.port.flight = some 1 ∧
    (sending.station 1).queue = [composed .sending 88, composed .waiting 89] ∧
    (awaiting.accepts (head 0) ∧ awaiting.port.state = .awaitingTaken) ∧
    (imaging.accepts (head 0) ∧ imaging.port.state = .imaging) ∧
    (quiet.accepts (head 0) ∧ quiet.port.state = .idle ∧ quiet.port.flight = none) := by decide +kernel

/-! ### Conditions -/

/-- RUNAWAY is HOLD, FOOT CLIP NOTE, NOT ON DRUM IGNORE by the defaults; STOP in a table of its own. -/
theorem witness_RaisingFollowsDisposition :
    (inState .stopped |>.station 0).state = .stopped ∧
    Dispositions.default[Condition.notOnDrum.number] = .ignore ∧ readyStation.state ≠ .stopped ∧
    Dispositions.default[Condition.footClip.number] = .note ∧
    (Dispositions.default.set 15 .stop)[Condition.duplicateLine.number] = .stop ∧
    Dispositions.default[Condition.runaway.number] = .hold ∧
    ({ readyStation with holds := ⟨false, true, false⟩ } : Station).holds.condition = true ∧
    readyStation.state = .ready ∧ readyStation.holds.condition = false ∧
    Station.powerOn.state ≠ .ready ∧ Station.powerOn.state ≠ .stopped ∧ Station.powerOn.holds.condition = false := by
  decide +kernel

theorem witness_IdleExpiryRaisesStalePage :
    (let s := part fun st => { onPage st with timerSetting := 1, idle := .running };
      s.choiceDue = false ∧ (s.station 0).idle = .running) ∧
    ready.choiceDue = false ∧ (ready.station 0).idle ≠ .running := by decide +kernel

/-! ### Lines, the arbiter and the imager -/

/-- Every debounce off; READY of an IDLE port falls, with its raw level low already, with a choice due and without. -/
theorem witness_LinesTakeLevels :
    ready.choiceDue = false ∧ ready.port.setup.debounce.get .cover ≠ .off ∧
    (let s := { ready with port := { ready.port with setup := { ready.port.setup with debounce := ⟨.off, .off, .off, .off, .off⟩ } } };
      s.choiceDue = false ∧ s.port.setup.debounce.get .cover = .off ∧ s.port.debounced.get .cover ≠ true ∧
      s.port.setup.debounce.get .ready = .off ∧ s.port.debounced.get .ready ≠ true) ∧
    ready.port.debounced.cover = false ∧
    (let low (s : State) : State := { s with port := { s.port with raw := ⟨false, false, false, false, false⟩ } };
      (low quiet).port.debounced.get .ready ≠ false ∧ (low quiet).port.raw.get .ready = false ∧
      (low quiet).choiceDue = false ∧ (low quiet).port.state = .idle ∧ (low idle).port.debounced.get .ready ≠ false ∧
      (low idle).port.raw.get .ready = false ∧ (low idle).choiceDue = true ∧ (low idle).port.state = .idle) := by
  decide +kernel

def voidDue : State := { sending with port := { sending.port with flight := none } }

/-- Every port state, READY and FAULT at each level. -/
theorem witness_ReadyAndFaultMoveThePort :
    (quiet.choiceDue = false ∧ quiet.port.debounced.ready = true ∧ quiet.port.state = .idle) ∧
    (let s := { idle with port := port .offline false };
      s.choiceDue = false ∧ s.port.debounced.ready = true ∧ s.port.state = .offline ∧ s.port.debounced.fault = false) ∧
    (let s := { idle with port := port .faulted false };
      s.choiceDue = false ∧ s.port.debounced.ready = true ∧ s.port.state = .faulted) ∧
    (voidDue.choiceDue = false ∧ voidDue.port.debounced.ready = true ∧ voidDue.port.debounced.fault = false ∧
      voidDue.port.state = .sending ∧ voidDue.port.flight = none) ∧
    (sending.choiceDue = false ∧ sending.port.state = .sending ∧ sending.port.flight = some 1 ∧
      (sending.station 1).queue = [composed .sending 88, composed .waiting 89]) ∧
    (awaiting.choiceDue = false ∧ awaiting.port.state = .awaitingTaken ∧ imaging.choiceDue = false ∧
      imaging.port.state = .imaging ∧ imaging.port.debounced.fault = false) ∧
    (ready.choiceDue = false ∧ ready.port.debounced.ready = false ∧ ready.port.state = .offline) ∧
    (let s := { idle with port := { port .idle false with debounced := ⟨false, false, false, true, false⟩ } };
      s.choiceDue = false ∧ s.port.debounced.ready = false ∧ s.port.state ≠ .offline ∧ s.port.debounced.fault = true ∧
      s.port.state ≠ .faulted) ∧
    (let s := { idle with port := { port .faulted false with debounced := ⟨true, false, false, true, false⟩ } };
      s.choiceDue = false ∧ s.port.debounced.fault = true ∧ s.port.state = .faulted) ∧
    (let s := after (.imaged 1 88 0) imaging;
      s.choiceDue = true ∧ s.port.returned = true ∧ s.port.debounced.fault = false) := by decide +kernel

theorem witness_HoldSwitchHoldsStations :
    ready.choiceDue = false ∧ ready.port.debounced.hold = false ∧ (ready.station 0).state = .ready ∧
    (let s := after .holdSwitchOn (part fun st => { st with timerSetting := 30 });
      s.choiceDue = false ∧ s.port.debounced.hold = true ∧ (s.station 0).state = .held ∧ (s.station 0).holds = ⟨false, false, true⟩ ∧
      (s.station 0).idle = .off ∧ (s.station 1).state ≠ .held) := by decide +kernel

/-- With the port open, the second station after the pointer is the first that waits; and nothing waits anywhere. -/
theorem witness_ArbiterChoosesInTurn :
    (idle.port.state = .idle ∧ idle.port.debounced.ready = true ∧ idle.port.debounced.cover = false ∧
      idle.pointer = 1 ∧ (idle.station 2).queue = [] ∧ (idle.station 3).queue = [composed .waiting 8] ∧
      (composed .waiting 8).state = .waiting ∧ idle.choiceDue = true) ∧
    (∃ t, exec .arbiterChoice idle = .next t) ∧ idle.port.returned = false ∧
    (after (.imaged 1 88 0) imaging).port.returned = true ∧
    (∀ i, (ready.station i).queue = []) ∧ ready.port.state ≠ .idle :=
  ⟨by decide +kernel, ⟨_, rfl⟩, rfl, by decide +kernel, by decide +kernel, by decide +kernel⟩

theorem witness_SendingEnds :
    sending.port.state = .sending ∧ sending.port.flight = some 1 ∧
    (sending.station 1).queue = [composed .sending 88, composed .waiting 89] ∧
    voidDue.port.state = .sending ∧ voidDue.port.flight = none := by decide +kernel

theorem witness_RepliesReachThePage :
    (awaiting.port.state = .awaitingTaken ∧ awaiting.port.flight = some 1 ∧
      (awaiting.station 1).queue = [composed .awaiting 88, composed .waiting 89] ∧
      (awaiting.station 1).reports.length ≤ 8) ∧
    (imaging.port.state = .imaging ∧ imaging.port.flight = some 1 ∧
      (imaging.station 1).queue = [composed .awaiting 88, composed .waiting 89] ∧
      (imaging.station 1).reports.length ≤ 8) := by decide +kernel

theorem witness_StrayRepliesAreCounted :
    ([0x01] : List Byte).length ≤ 1 ∧ ([0x01, 0x00, 0x58] : List Byte).length ≤ 3 ∧ (1 : Byte) ≠ 0 ∧ quiet.choiceDue = false ∧ quiet.port.state ≠ .awaitingTaken ∧ quiet.port.state ≠ .imaging ∧
    (imaging.choiceDue = false ∧ imaging.port.flight = some 1 ∧ (imaging.station 1).queue = [composed .awaiting 88, composed .waiting 89] ∧
      (5 : Byte) ≠ byteOf (1 : StationId).val ∧ (89 : Half) ≠ (composed .awaiting 88).page) ∧
    (0x80 : Byte) ∉ [(0x81 : Byte), 0x82, 0x83, 0x84] ∧ (0x85 : Byte) ∉ [(0x81 : Byte), 0x82, 0x83, 0x84] := by
  decide +kernel

theorem witness_TimersSpoilThePage :
    (quiet.choiceDue = false ∧ quiet.port.replyTimer = false ∧ quiet.port.imagingTimer = none) ∧
    (awaiting.choiceDue = false ∧ awaiting.port.flight = some 1 ∧ (awaiting.station 1).queue = [composed .awaiting 88, composed .waiting 89] ∧
      awaiting.port.state = .awaitingTaken ∧ awaiting.port.replyTimer = true) ∧
    (imaging.choiceDue = false ∧ imaging.port.flight = some 1 ∧
      (imaging.station 1).queue = [composed .awaiting 88, composed .waiting 89] ∧
      imaging.port.state = .imaging ∧ imaging.port.imagingTimer.isSome = true) := by decide +kernel

/-! ### Lines and pages -/

/-- A list for each of the five cases. -/
theorem witness_StrikeListsClassify :
    ([[], [.underscore, .underscore, .underscore], [.glyph 1], [.glyph 1, .underscore, .glyph 1],
      [.glyph 1, .glyph 2, .glyph 1], [.glyph 1, .glyph 2, .glyph 3]] : List (List Strike)).all
      (fun l => l.length ≤ 3) = true := by decide +kernel

theorem witness_KeysCompareByWeight : ([5] : Key) ≠ [] := by decide

def name (l : List Code) : List Cell := l.map glyph

/-- A listing at the first and last positions of a window, first of its column, and less than, equal to and greater than the
last key. -/
theorem witness_ListingsAreCheckedInColumn :
    1 ≤ (window 1 100).start ∧ isListing (window 1 100) (name [65]) = true ∧ (window 1 100).check = true ∧
    tools.coll = some coll ∧ ColumnRecord.fresh.lastKey = none ∧
    (let key := formKey coll (keyField (window 1 100) (name [66]));
      [compareKeys key [12], compareKeys key [11], compareKeys key [10]] = [.lt, .eq, .gt]) ∧
    isListing (window 34 2700) (name [65]) = false ∧ ({ window 1 100 with check := false } : Window).check = false ∧
    isListing { window 1 100 with check := false } (name [65]) = true ∧
    isListing { window 1 100 with guide := false } (name [65]) = true := by decide +kernel

theorem witness_PlacedCellsFitThePage :
    40 ≤ layout.reduction ∧ layout.valid = true ∧ (placeCells layout 1 (name [65])).1 = [⟨100, glyph 65⟩] ∧
    placeGuide layout 100 [65] = some ⟨[65], 100⟩ := by decide +kernel

/-- SPACE 1 to the last line and over the foot, SKIP 12 to line 2, SKIP 1 over the foot to line 1. -/
theorem witness_MotionsMoveTheCarriage :
    ready.accepts (head 0) ∧ Control.ofByte 0x01 = some ⟨false, .space 1⟩ ∧ Control.ofByte 0x4C = some ⟨false, .skip 12⟩ ∧
    Control.ofByte 0xC1 = some ⟨true, .skip 1⟩ ∧ (ready.station 0).state = .ready ∧
    (head 0).seq = (ready.station 0).expected ∧ (ready.station 0).hasStrikes = false ∧ (ready.station 0).openPage = none ∧
    (ready.station 0).sel.tape = some 0 ∧ ready.library.tapes[(0 : Fin 8)] = some tape ∧
    (ready.station 0).reports.length ≤ 8 ∧ (ready.station 0).line + 1 ≤ tape.formLength ∧
    tape.holdsChannel 2 12 = true ∧ tape.holdsChannel 1 1 = true ∧ tape.holdsChannel 2 1 = false ∧
    (let s := part fun st => { st with line := 2 };
      s.accepts (head 0) ∧ (s.station 0).line = tape.formLength ∧ Control.ofByte 0x03 = some ⟨false, .space 3⟩ ∧
      1 ≤ (s.station 0).line ∧ (s.station 0).line ≤ tape.formLength ∧ tape.formLength < (s.station 0).line + 3 ∧
      tape.formLength < (s.station 0).line + 1) := by decide +kernel

/-- A PRINT that needs a slot and can open one, the 1022 print bytes a frame holds, and a MOVE; SPACE 3 and SKIP 1 over the foot
of an open page, and SKIP 12 within the form under BEFORE. -/
theorem witness_TakenLineOrdersAreDone :
    (let s := part onPage;
      let f := (s.library.tools (s.station 0).sel).tape.formLength;
      s.accepts (head 0) ∧ (s.station 0).state = .ready ∧ (head 0).seq = (s.station 0).expected ∧
      (s.station 0).needsSlot (s.library.tools (s.station 0).sel) (.space 3) [] = false ∧
      1 ≤ (s.station 0).line ∧ (s.station 0).line ≤ f ∧ ((s.station 0).line + 3 - 1) / f = 2 ∧
      Control.ofByte 0x41 = some ⟨false, .skip 1⟩ ∧ tape.holdsChannel 1 1 = true ∧ f = 2 ∧
      (s.station 0).line = 2) ∧
    (Control.ofByte 0xCC = some ⟨true, .skip 12⟩ ∧ tape.holdsChannel 2 12 = true ∧ (ready.station 0).line = 1 ∧
      ready.canOpen 0 = true) ∧
    ready.accepts (head 0) ∧ Control.ofByte 0x03 = some ⟨false, .space 3⟩ ∧
    (List.replicate 1022 (65 : Byte)).length ≤ 1022 ∧ (ready.station 0).state = .ready ∧
    (head 0).seq = (ready.station 0).expected ∧ 2 ≤ (ready.library.tools (ready.station 0).sel).tape.formLength ∧
    1 ≤ (ready.station 0).line ∧
    (ready.station 0).line ≤ (ready.library.tools (ready.station 0).sel).tape.formLength ∧
    (ready.station 0).needsSlot (ready.library.tools (ready.station 0).sel) (.space 3) [65] = true ∧
    ready.canOpen 0 = true := by decide +kernel

theorem witness_OverprintAddsStrikes :
    ready.accepts (head 0) ∧ Control.ofByte 0x80 = some ⟨true, .space 0⟩ ∧
    (List.replicate 132 (201 : Byte)).length ≤ 132 ∧ (ready.station 0).state = .ready ∧
    (head 0).seq = (ready.station 0).expected ∧ (∀ p : Fin 132, (ready.station 0).strikes[p].strikes.length ≤ 2) ∧
    lookDrum (ready.library.tools (ready.station 0).sel).drum 201 = .underscore ∧
    (List.replicate 1022 (203 : Byte)).length ≤ 1022 := by decide +kernel

theorem witness_RunawayKeepsTheLine :
    (part onPage).accepts (head 0) ∧ Control.ofByte 0x45 = some ⟨false, .skip 5⟩ ∧
    ((part onPage).station 0).state = .ready ∧ (head 0).seq = ((part onPage).station 0).expected ∧
    (∀ n, n ≤ 2 → tape.holdsChannel n 5 = false) ∧
    ((part onPage).library.tools ((part onPage).station 0).sel).tape = tape := by decide +kernel

/-- Control bytes at the edges of the motions, each state, a repeat, and a full quota. -/
theorem witness_UntakenLineOrders :
    ((0xCC : Byte).getLsbD 4 = false ∧ (0xCC : Byte).getLsbD 5 = false ∧ (0xCC : Byte).getLsbD 6 = true ∧
      ((0xCC : Byte).extractLsb' 0 4).toNat = 12 ∧ (0x83 : Byte).getLsbD 6 = false ∧
      ((0x83 : Byte).extractLsb' 0 4).toNat = 3) ∧
    ready.accepts (head 0) ∧ (0x10 : Byte).getLsbD 4 = true ∧ ((0x04 : Byte).extractLsb' 0 4).toNat = 4 ∧
    (0x4D : Byte).getLsbD 6 = true ∧ ((0x4D : Byte).extractLsb' 0 4).toNat = 13 ∧ Control.ofByte 0x4C = some ⟨false, .skip 12⟩ ∧
    (ready.accepts (head 1) ∧ (ready.station 1).state = .unloaded) ∧
    (ready.accepts ⟨0, true, 0⟩ ∧ (ready.station 0).state ≠ .unloaded ∧ true ≠ (ready.station 0).expected) ∧
    ((inState .held).accepts (head 0) ∧ ((inState .held).station 0).state = .held ∧ (inState .draining).accepts (head 0) ∧
      ((inState .draining).station 0).state = .draining) ∧
    ((inState .stopped).accepts (head 0) ∧ ((inState .stopped).station 0).state = .stopped) ∧
    (noSlot.accepts (head 0) ∧ (head 0).seq = (noSlot.station 0).expected ∧ (noSlot.station 0).state = .ready ∧
      (noSlot.station 0).openPage = none ∧ noSlot.canOpen 0 = false ∧ (noSlot.station 0).hasStrikes = true ∧
      tape.holdsChannel 2 12 = true) := by decide +kernel

/-- With strikes and without, into an open page and a fresh one. -/
theorem witness_CommitFilesTheLine :
    readyStation.hasStrikes = false ∧ (struck [.glyph 65] readyStation).hasStrikes = true ∧
    readyStation.openPage = none ∧ (onPage readyStation).openPage = some (composed .opened 17) ∧
    layout.depth < plateRow layout .eight 128 ∧ plateRow layout .six 2 ≤ layout.depth ∧
    layout.plateX (window 1 100) 1 + layout.cellWidth ≤ layout.width := by decide +kernel

theorem witness_FormEndClosesThePage :
    (onPage readyStation).openPage = some (composed .opened 17) ∧ readyStation.openPage = none := by
  decide +kernel

end Sys2Proof.Machine.Tests
end

section
/-! SUPPORT. What a command can do to the stations, the park slots and the library, said once: every command is a chain of
the changes listed in `Change`, so a law of whole states that each of them keeps is kept by every command. -/

namespace Sys2Proof.Machine

/-! ## The changes -/

/-- The states have the same stations, park slots, library and waiting commands; port, pointer and link are free. -/
structure State.Alike (s t : State) : Prop where
  stations : t.stations = s.stations
  parks : t.parks = s.parks
  library : t.library = s.library
  pending : t.pending = s.pending

/-- What one change can make of station `i` while the library stays as it is. -/
inductive StationChange (s : State) (i : StationId) : Station → Prop where
  /-- A taken PRINT or MOVE. -/
  | line (c : Control) (bytes : Option (List Byte)) (hr : (s.station i).state = .ready)
      (hs : (s.station i).needsSlot (s.library.tools (s.station i).sel) c.motion (c.bytesBefore (bytes.getD [])) = true →
        s.canOpen i = true) :
      StationChange s i (takeLineOrder (s.library.tools (s.station i).sel) c bytes (s.station i)).1
  /-- A condition is raised. -/
  | raise (e : CondEntry) : StationChange s i ((s.station i).raise s.library.dispositions e)
  /-- A running idle timer expires. -/
  | expire (hr : (s.station i).idle = .running) : StationChange s i { s.station i with idle := .expired }
  /-- A taken BEGIN JOB. -/
  | beginJob (job page : Half) (hp : page ≠ 0) (hr : (s.station i).state = .ready) (hb : (s.station i).busy = false) :
      StationChange s i { s.station i with job := job, page := page, counters := Counters.zero, carry := none }
  /-- A taken END JOB. -/
  | endJob (hr : (s.station i).state = .ready)
      (hs : (s.station i).hasStrikes = true → (s.station i).openPage = none → s.canOpen i = true) :
      StationChange s i (endJobWork (s.library.tools (s.station i).sel) (s.station i)).st.finishJob
  | hold : StationChange s i (s.station i).hold
  | release : StationChange s i (s.station i).release
  | panel (on : Bool) : StationChange s i ((s.station i).panel on)
  | stop (hu : (s.station i).state ≠ .unloaded) : StationChange s i ((s.station i).stopWith .operator)
  | reset (on : Bool) : StationChange s i ((s.station i).reset on)
  /-- All the station's closed slots are freed. -/
  | freeAll : StationChange s i { s.station i with queue := [] }
  | quota (b : Byte) : StationChange s i { s.station i with quota := clampQuota b }
  | timer (b : Byte) : StationChange s i ((s.station i).setTimer b)
  | matchValue (x : Word) : StationChange s i { s.station i with matchValue := x }
  /-- LINK RESET. -/
  | expectZero : StationChange s i { s.station i with expected := false }
  | clearBy (mask : Byte) : StationChange s i ((s.station i).clearBy mask)
  /-- A REPORT. -/
  | report (n : Nat) : StationChange s i { s.station i with reports := (s.station i).reports.drop n }
  /-- The page at the head of the queue goes on its way, or spoils. -/
  | head (x : SlotState) (n : Nat) {p : Page} {rest : List Page} (hq : (s.station i).queue = p :: rest) :
      StationChange s i { s.station i with queue := { p with state := x, spoils := n } :: rest }
  | imaged {p : Page} {rest : List Page} (hq : (s.station i).queue = p :: rest) :
      StationChange s i ((s.station i).imagedOutcome p)
  | refused {p : Page} {rest : List Page} (hq : (s.station i).queue = p :: rest) :
      StationChange s i ((s.station i).refusedOutcome s.library.dispositions p)

/-- One change of the stations, the park slots and the library. -/
inductive Change (s : State) : State → Prop where
  /-- Nothing of them changes. -/
  | rest {t : State} (h : s.Alike t) : Change s t
  | station {i : StationId} {st : Station} (h : StationChange s i st) : Change s (s.setStation i st)
  /-- A taken SELECT. -/
  | select (i : StationId) (d t l : Choice 8) (c : Choice 4) (hd : (s.station i).state ≠ .draining)
      (hb : (s.station i).busy = false)
      (he : (namesEmpty s.library.drums d || namesEmpty s.library.tapes t || namesEmpty s.library.layouts l ||
        namesEmpty s.library.colls c) = false)
      (ht : ((s.station i).sel.choose d t l c).tape ≠ (s.station i).sel.tape → (s.station i).line = 1)
      (hf : d ≠ .use none ∧ t ≠ .use none ∧ l ≠ .use none) :
      Change s { s.setStation i ((s.station i).select ((s.station i).sel.choose d t l c)) with
        library := { s.library with refs := s.library.refs.move (s.station i).sel ((s.station i).sel.choose d t l c) } }
  | park (i : StationId) (k : Fin 4) (hr : (s.station i).state = .ready) (hb : (s.station i).busy = false)
      (hk : s.parks[k] = none) :
      Change s { s.setStation i (s.station i).parked with parks := s.parks.set k (some (s.station i).parkRecord) }
  | resume (i : StationId) (k : Fin 4) (r : ParkRecord) (line : Nat)
      (hs : (s.station i).state = .unloaded ∨ (s.station i).state = .ready) (hb : (s.station i).busy = false)
      (hk : s.parks[k] = some r)
      (hl : line = 1 ∨ line = r.line ∧ r.line ≤ (s.library.tapeOf r.sel).formLength) :
      Change s { s.setStation i ((s.station i).resumed r line) with
        parks := s.parks.set k none
        library := { s.library with refs := s.library.refs.release (s.station i).sel } }
  /-- DEVICE CLEAR empties a park slot. -/
  | emptyPark (k : Fin 4) : Change s { s with
      parks := s.parks.set k none
      library := { s.library with refs := s.library.refs.releasePark s.parks[k] } }
  | loadDrum (e : Fin 8) (d : DrumTable) (hu : s.drumInUse e = false) :
      Change s { s with library := { s.library with drums := s.library.drums.set e (some d) } }
  | loadTape (e : Fin 8) (t : Tape) (ht : (∀ x, s.library.tapes[e] = some x → x.wellFormed = true) → t.wellFormed = true)
      (hu : s.tapeInUse e = false) :
      Change s { s with library := { s.library with tapes := s.library.tapes.set e (some t) } }
  | loadLayout (e : Fin 8) (l : Layout) (hl : l.valid = true) (hu : s.layoutInUse e = false) :
      Change s { s with library := { s.library with layouts := s.library.layouts.set e (some l) } }
  | loadColl (e : Fin 4) (c : CollTable) (hu : s.collInUse e = false) :
      Change s { s with library := { s.library with colls := s.library.colls.set e (some c) } }
  | loadConditions (d : Dispositions) : Change s { s with library := { s.library with dispositions := d } }
  | clearDrum (e : Fin 8) (hr : s.library.refs.drum[e] = 0) :
      Change s { s with library := { s.library with drums := s.library.drums.set e none } }
  | clearTape (e : Fin 8) (hr : s.library.refs.tape[e] = 0) :
      Change s { s with library := { s.library with tapes := s.library.tapes.set e none } }
  | clearLayout (e : Fin 8) (hr : s.library.refs.layout[e] = 0) :
      Change s { s with library := { s.library with layouts := s.library.layouts.set e none } }
  | clearColl (e : Fin 4) (hr : s.library.refs.coll[e] = 0) :
      Change s { s with library := { s.library with colls := s.library.colls.set e none } }
  | powerOn : Change s { State.reset with pending := s.pending }

/-- The state `t` is reached from `s` by changes. -/
abbrev Reach : State → State → Prop := Relation.ReflTransGen Change

variable {s t u : State} {i : StationId}

theorem State.Alike.refl (s : State) : s.Alike s := ⟨rfl, rfl, rfl, rfl⟩

/-! ## Chains of changes -/

theorem Reach.rest (h : Reach s t) (ha : t.Alike u) : Reach s u := h.tail (.rest ha)

theorem Reach.of_alike (ha : s.Alike u) : Reach s u := .single (.rest ha)

theorem Reach.of_station {st : Station} (h : StationChange s i st) : Reach s (s.setStation i st) := .single (.station h)

/-- One station changed once more. -/
theorem Reach.setStation {st st' : Station} (h : Reach s (s.setStation i st))
    (h' : StationChange (s.setStation i st) i st') : Reach s (s.setStation i st') := by
  have := h.tail (.station h')
  rwa [State.setStation_setStation] at this

theorem Reach.raise {st : Station} (h : Reach s (s.setStation i st)) (e : CondEntry) :
    Reach s (s.setStation i (st.raise s.library.dispositions e)) := by
  have := h.setStation (.raise e)
  rwa [State.station_setStation_same, State.setStation_library] at this

theorem State.mapStations_eq (s : State) (f : Station → Station) :
    s.mapStations f = (((s.setStation 0 (f (s.station 0))).setStation 1 (f (s.station 1))).setStation 2
      (f (s.station 2))).setStation 3 (f (s.station 3)) := by
  refine State.ext_of_parts (fun i => ?_) rfl rfl rfl rfl rfl rfl
  rw [State.station_mapStations]
  fin_cases i <;> simp

/-- A change that can be made of any one station can be made of all four. -/
theorem Reach.mapStations {f : Station → Station} (hf : ∀ (s : State) i, Reach s (s.setStation i (f (s.station i)))) :
    Reach s (s.mapStations f) := by
  have next : ∀ {u : State} (i : StationId), Reach s u → u.station i = s.station i →
      Reach s (u.setStation i (f (s.station i))) := by
    intro u i hu hi
    have := hf u i
    rw [hi] at this
    exact hu.trans this
  rw [State.mapStations_eq]
  exact next 3 (next 2 (next 1 (next 0 .refl rfl) (by simp)) (by simp)) (by simp)

/-! ## Events -/

theorem Reach.of_owe (h : Reach s t) (l : Lead) (a : Answer) : Reach s (t.owe l a) := h.rest ⟨rfl, rfl, rfl, rfl⟩

theorem Reach.setReceive (r : Receive) (b : Bool) : Reach s (s.setReceive r b) := .of_alike ⟨rfl, rfl, rfl, rfl⟩

theorem Reach.strayReply : Reach s s.strayReply := .of_alike ⟨rfl, rfl, rfl, rfl⟩

theorem Reach.arbitrate (s : State) : Reach s s.arbitrate := by
  rcases s.arbitrate_cases with h | ⟨i, p, rest, -, -, hq, h⟩ <;> rw [h]
  exact (Reach.of_station (.head .sending p.spoils hq)).rest ⟨rfl, rfl, rfl, rfl⟩

theorem Reach.beforeLine (l : Line) (b : Bool) : Reach s (s.beforeLine l b) := by
  rcases s.beforeLine_cases l b with h | ⟨-, -, -, -, h⟩ <;> rw [h]
  · exact .arbitrate s
  · exact .of_alike ⟨rfl, rfl, rfl, rfl⟩

/-- The head of a queue spoils, and conditions may be raised (R162). -/
theorem Reach.spoilHead {p : Page} {rest : List Page} (hq : (s.station i).queue = p :: rest) (timeout : Bool) :
    Reach s (s.setStation i ((s.station i).spoilHead s.library.dispositions timeout p)) := by
  have h1 : Reach s (s.setStation i ((s.station i).setHead p.spoil)) := by
    rw [Station.setHead_of_queue _ hq]
    exact .of_station (.head .spoiled _ hq)
  unfold Station.spoilHead
  simp only
  split
  · split
    · exact (h1.raise _).raise _
    · exact h1.raise _
  · split
    · exact h1.raise _
    · exact h1

theorem State.flightPage_queue {p : Page} (h : s.flightPage = some (i, p)) : ∃ rest, (s.station i).queue = p :: rest := by
  obtain ⟨-, hq⟩ := State.flightPage_eq_some.mp h
  exact List.head?_eq_some_iff.mp hq

theorem Reach.spoilFlight (timeout : Bool) (dest : PortState) : Reach s (s.spoilFlight timeout dest) := by
  cases hf : s.flightPage with
  | none =>
    rw [State.spoilFlight_none timeout dest hf]
    exact .of_alike ⟨rfl, rfl, rfl, rfl⟩
  | some x =>
    obtain ⟨i, p⟩ := x
    obtain ⟨rest, hq⟩ := State.flightPage_queue hf
    rw [State.spoilFlight_some timeout dest hf]
    exact (Reach.spoilHead hq timeout).rest ⟨rfl, rfl, rfl, rfl⟩

theorem Reach.readyMove (b : Bool) : Reach s (s.readyMove b) := by
  unfold State.readyMove
  split
  · exact .of_alike ⟨rfl, rfl, rfl, rfl⟩
  · exact .of_alike ⟨rfl, rfl, rfl, rfl⟩
  · exact .of_alike ⟨rfl, rfl, rfl, rfl⟩
  · split
    · exact .spoilFlight _ _
    · exact .refl
  · exact .spoilFlight _ _
  · exact .spoilFlight _ _
  · exact .refl

theorem Reach.faultMove (b : Bool) : Reach s (s.faultMove b) := by
  unfold State.faultMove
  split
  · exact .of_alike ⟨rfl, rfl, rfl, rfl⟩
  · exact .of_alike ⟨rfl, rfl, rfl, rfl⟩
  · split
    · exact .spoilFlight _ _
    · exact .refl
  · exact .spoilFlight _ _
  · exact .spoilFlight _ _
  · exact .refl

theorem Reach.lineEffect (l : Line) (b : Bool) : Reach s (s.lineEffect l b) := by
  cases l with
  | ready => exact .readyMove b
  | fault => exact .faultMove b
  | cover => exact .refl
  | mediaLow => exact .refl
  | hold => exact .mapStations fun _ _ => .of_station (.panel b)

theorem Reach.setDebounced (l : Line) (b : Bool) : Reach s (s.setDebounced l b) := by
  unfold State.setDebounced
  split
  · exact .refl
  · refine Relation.ReflTransGen.trans ?_ (Reach.lineEffect l b)
    exact Reach.of_alike ⟨rfl, rfl, rfl, rfl⟩

theorem Reach.setRaw (l : Line) (b : Bool) : Reach s (s.setRaw l b) := .of_alike ⟨rfl, rfl, rfl, rfl⟩

theorem Reach.takeRaw (l : Line) : Reach s (s.takeRaw l) := by
  unfold State.takeRaw
  split
  · exact .setDebounced _ _
  · exact .refl

theorem Reach.rawChange (l : Line) (b : Bool) : Reach s (s.rawChange l b) := by
  refine Relation.ReflTransGen.trans ?_ (Reach.takeRaw l)
  refine Relation.ReflTransGen.trans ?_ (Reach.setRaw l b)
  split
  · exact Reach.beforeLine l b
  · exact Reach.arbitrate s

theorem Reach.debouncedEvent (l : Line) (b : Bool) : Reach s (s.debouncedEvent l b) := by
  unfold State.debouncedEvent
  split
  · exact .refl
  · exact (Reach.setRaw l b).trans (Reach.setDebounced l b)

theorem Reach.idleExpiry (i : StationId) : Reach s (s.idleExpiry i) := by
  unfold State.idleExpiry Station.idleExpiry
  split
  · rename_i hr
    exact (Reach.of_station (.expire hr)).raise _
  · simpa using Relation.ReflTransGen.refl

theorem Reach.pageCloseSent : Reach s s.pageCloseSent := by
  unfold State.pageCloseSent
  split
  · split
    · exact .refl
    · rename_i i p hf
      obtain ⟨rest, hq⟩ := State.flightPage_queue hf
      rw [Station.setHead_of_queue _ hq]
      exact (Reach.of_station (.head .awaiting p.spoils hq)).rest ⟨rfl, rfl, rfl, rfl⟩
  · exact .refl

theorem Reach.pageVoidSent : Reach s s.pageVoidSent := by
  unfold State.pageVoidSent
  split
  · exact .of_alike ⟨rfl, rfl, rfl, rfl⟩
  · exact .refl

theorem Reach.portTimeout (b : Bool) : Reach s (s.portTimeout b) := by
  unfold State.portTimeout
  split
  · exact .spoilFlight _ _
  · exact .refl

/-! ## Replies of the imager -/

theorem Reach.replyTaken : Reach s s.replyTaken := by
  unfold State.replyTaken
  split
  · exact .of_alike ⟨rfl, rfl, rfl, rfl⟩
  · exact .strayReply

theorem Reach.replyRefused : Reach s s.replyRefused := by
  unfold State.replyRefused
  split
  · split
    · exact .strayReply
    · rename_i i p hf
      obtain ⟨rest, hq⟩ := State.flightPage_queue hf
      exact (Reach.of_station (.refused hq)).rest ⟨rfl, rfl, rfl, rfl⟩
  · exact .strayReply

theorem Reach.replyImaged (a : Byte) (n : Half) : Reach s (s.replyImaged a n) := by
  unfold State.replyImaged
  split
  · exact .strayReply
  · rename_i i p hm
    obtain ⟨-, hf, -, -⟩ := State.matching_eq_some.mp hm
    obtain ⟨rest, hq⟩ := State.flightPage_queue hf
    exact (Reach.of_station (.imaged hq)).rest ⟨rfl, rfl, rfl, rfl⟩

theorem Reach.replySpoiled (a : Byte) (n : Half) : Reach s (s.replySpoiled a n) := by
  unfold State.replySpoiled
  split
  · exact .strayReply
  · exact (Reach.spoilFlight _ _).rest ⟨rfl, rfl, rfl, rfl⟩

theorem Reach.checkedReply (sum : Byte) {take : State → State} (h : ∀ s, Reach s (take s)) :
    Reach s (s.checkedReply sum take) := by
  unfold State.checkedReply
  split
  · exact h s
  · exact .strayReply

theorem Reach.readImagerBytes (bytes : List Byte) (s : State) : Reach s (readImagerBytes bytes s) := by
  have arb : ∀ s : State, Reach s s.arbitrate.strayReply := fun s => (Reach.arbitrate s).trans Reach.strayReply
  have next : ∀ (s : State) (sum : Byte) {take : State → State}, (∀ s, Reach s (take s)) →
      Reach s (s.arbitrate.checkedReply sum take) := fun s sum _ h => (Reach.arbitrate s).trans (Reach.checkedReply sum h)
  fun_induction Sys2Proof.Machine.readImagerBytes bytes s with
  | case1 s => exact .arbitrate s
  | case2 s c rest ih => exact (next s _ fun _ => .replyTaken).trans ih
  | case3 => exact arb _
  | case4 s r c rest _ ih => exact (next s _ fun _ => .replyRefused).trans ih
  | case5 => exact arb _
  | case6 s i p1 p0 c rest _ _ ih => exact (next s _ fun _ => .replyImaged _ _).trans ih
  | case7 => exact arb _
  | case8 s i p1 p0 c rest _ _ _ ih => exact (next s _ fun _ => .replySpoiled _ _).trans ih
  | case9 => exact arb _
  | case10 => exact arb _

/-! ## Orders -/

/-- What an order may leave: the state as it was, or a state reached by changes under the answer DONE (R6). -/
def Carried (s : State) (r : State × Answer) : Prop := r.1 = s ∨ r.2.result = .done ∧ Reach s r.1

theorem Carried.reach {r : State × Answer} (h : Carried s r) : Reach s r.1 := by
  rcases h with h | ⟨-, h⟩
  · rw [h]
  · exact h

/-- An order that is not answered DONE changes nothing. -/
theorem Carried.undone {r : State × Answer} (h : Carried s r) (hr : r.2.result ≠ .done) : r.1 = s := by
  rcases h with h | ⟨hd, -⟩
  · exact h
  · exact absurd hd hr

theorem Carried.same (a : Answer) : Carried s (s, a) := .inl rfl

theorem Carried.done {a : Answer} (ha : a.result = .done) (h : Reach s t) : Carried s (t, a) := .inr ⟨ha, h⟩

theorem Carried.ite {p : Prop} [Decidable p] {r r' : State × Answer} (h : Carried s r) (h' : Carried s r') :
    Carried s (if p then r else r') := by
  split
  · exact h
  · exact h'

theorem Carried.ite_not {p : Prop} [Decidable p] {r r' : State × Answer} (h : Carried s r) (h' : ¬ p → Carried s r') :
    Carried s (if p then r else r') := by
  split
  · exact h
  · exact h' ‹_›

theorem Carried.atStation {f : Station → Station × Answer}
    (h : (f (s.station i)).1 = s.station i ∨
      (f (s.station i)).2.result = .done ∧ Reach s (s.setStation i (f (s.station i)).1)) :
    Carried s (s.atStation i f) := by
  rcases h with h | h
  · left
    simp [State.atStation, h]
  · exact .inr h

theorem lineOrder_carried (seq : Bool) (control : Byte) (bytes : Option (List Byte)) :
    Carried s (s.atStation i
      (Station.lineOrder (s.library.tools (s.station i).sel) (s.canOpen i) seq control bytes)) := by
  refine .atStation ?_
  rcases Station.lineOrder_cases (s.library.tools (s.station i).sel) (s.canOpen i) seq control bytes (s.station i) with
    ⟨h, -⟩ | ⟨h, -, -⟩ | ⟨hr, -, c, -, h, hs⟩
  · exact .inl h
  · rw [h]
    exact .inr ⟨rfl, .of_station (.raise _)⟩
  · rw [h]
    exact .inr ⟨rfl, .of_station (.line c bytes hr hs)⟩

theorem orderPrint_carried (seq : Bool) (data : List Byte) : Carried s (orderPrint i seq data s) := by
  unfold orderPrint
  split
  · exact .same _
  · exact lineOrder_carried ..

theorem orderMove_carried (seq : Bool) (data : List Byte) : Carried s (orderMove i seq data s) := by
  unfold orderMove
  split
  · exact lineOrder_carried ..
  · exact .same _

theorem Choice.ofByte_ne_none {b : Byte} {c : Choice 8} (h : Choice.ofByte b = some c) : c ≠ .use none := by
  rintro rfl
  unfold Choice.ofByte at h
  split at h
  · simp at h
  · simp at h

theorem orderSelect_carried (data : List Byte) : Carried s (orderSelect i data s) := by
  unfold orderSelect
  split
  · split
    · rename_i d t l c hd ht hl _
      dsimp only
      refine .ite_not (.same _) fun hdr => .ite_not (.same _) fun hb => .ite_not (.same _) fun he =>
        .ite_not (.same _) fun htop => .inr ⟨rfl, .single (.select i d t l c hdr (by simpa using hb) (by simpa using he) ?_
        ⟨Choice.ofByte_ne_none hd, Choice.ofByte_ne_none ht, Choice.ofByte_ne_none hl⟩)⟩
      intro hn
      by_contra hl
      exact htop ⟨hn, hl⟩
    · exact .same _
  · exact .same _

/-! ### The library -/

theorem orderLoadDrum_carried (data : List Byte) : Carried s (orderLoadDrum data s) := by
  unfold orderLoadDrum
  split
  · split
    · exact .same _
    · split
      · exact .ite (.same _) <| .ite_not (.same _) fun hu => .inr ⟨rfl, .single (.loadDrum _ _ (by simpa using hu))⟩
      · exact .same _
  · exact .same _

/-- A run of stop sets keeps their number. -/
theorem writeStops_length (old : List StopSet) (f start : Nat) (els : List StopSet)
    (h : start ≠ 1 → old.length = f) : (writeStops old f start els).length = f := by
  unfold writeStops
  refine writeRun_keeps (P := fun t : List StopSet => t.length = f) (fun t i e ht => by simpa using ht) _ _ _ ?_
  split
  · simp
  · rename_i hs
    exact h hs

theorem orderLoadTape_carried (data : List Byte) : Carried s (orderLoadTape data s) := by
  unfold orderLoadTape
  split
  · rename_i be bf bp bo bs rest
    split
    · exact .same _
    · split
      · rename_i e pitch els _ _ _
        dsimp only
        refine .ite_not (.same _) fun hf => .ite_not (.same _) fun hempty => .ite_not (.same _) fun hform =>
          .ite_not (.same _) fun hu => .inr ⟨rfl, .single (.loadTape _ _ (fun hwf => ?_) (by simpa using hu))⟩
        have hlen : bs.toNat ≠ 1 → (match s.library.tapes[e] with
            | none => []
            | some t => t.stops).length = bf.toNat := by
          intro hs
          cases ht : s.library.tapes[e] with
          | none => simp [hs, ht] at hempty
          | some t =>
            have hw := hwf t ht
            simp only [Tape.wellFormed, Bool.and_eq_true, beq_iff_eq] at hw
            obtain ⟨⟨⟨_, hstops⟩, _⟩, _⟩ := hw
            simp [hs, ht, Tape.sameForm] at hform
            simp [hstops, hform]
        simp only [Tape.wellFormed, Bool.and_eq_true, decide_eq_true_eq, beq_iff_eq]
        refine ⟨⟨⟨⟨?_, ?_⟩, writeStops_length _ _ _ _ hlen⟩, ?_⟩, ?_⟩ <;> omega
      · exact .same _
  · exact .same _

theorem orderLoadLayout_carried (data : List Byte) : Carried s (orderLoadLayout data s) := by
  unfold orderLoadLayout
  split
  · split
    · exact .same _
    · split
      · refine .ite_not (.same _) fun hv => .ite_not (.same _) fun hu =>
          .inr ⟨rfl, .single (.loadLayout _ _ ?_ (by simpa using hu))⟩
        by_contra hl
        exact hv (.inr (by simpa using hl))
      · exact .same _
  · exact .same _

theorem orderLoadCollation_carried (data : List Byte) : Carried s (orderLoadCollation data s) := by
  unfold orderLoadCollation
  split
  · split
    · exact .same _
    · split
      · exact .same _
      · exact .ite_not (.same _) fun hu => .inr ⟨rfl, .single (.loadColl _ _ (by simpa using hu))⟩
  · exact .same _

theorem orderLoadConditions_carried (data : List Byte) : Carried s (orderLoadConditions data s) := by
  unfold orderLoadConditions
  split
  · exact .same _
  · split
    · exact .same _
    · exact .inr ⟨rfl, .single (.loadConditions _)⟩

theorem orderLibraryClear_carried (params : List Byte) : Carried s (orderLibraryClear params s) := by
  unfold orderLibraryClear
  split
  · refine .ite ?_ <| .ite ?_ <| .ite ?_ <| .ite ?_ (.same _)
    · split
      · exact .same _
      · exact .ite_not (.same _) fun hr => .inr ⟨rfl, .single (.clearDrum _ (not_not.mp hr))⟩
    · split
      · exact .same _
      · exact .ite_not (.same _) fun hr => .inr ⟨rfl, .single (.clearTape _ (not_not.mp hr))⟩
    · split
      · exact .same _
      · exact .ite_not (.same _) fun hr => .inr ⟨rfl, .single (.clearLayout _ (not_not.mp hr))⟩
    · split
      · exact .same _
      · exact .ite_not (.same _) fun hr => .inr ⟨rfl, .single (.clearColl _ (not_not.mp hr))⟩
  · exact .same _

/-! ### The station orders -/

/-- A STATION order of no more than a station, all its outcomes carried. -/
theorem Carried.stationOrder {params : List Byte} {f : Byte → Byte → Byte → Byte → Station → Station × Answer}
    (h : ∀ a b c d, (f a b c d (s.station i)).1 = s.station i ∨
      (f a b c d (s.station i)).2.result = .done ∧ Reach s (s.setStation i (f a b c d (s.station i)).1)) :
    Carried s (s.stationOrder i params f) := by
  unfold State.stationOrder
  split
  · exact .atStation (h ..)
  · exact .same _

theorem orderBeginJob_carried (params : List Byte) : Carried s (orderBeginJob i params s) := by
  refine .stationOrder fun a b c d => ?_
  unfold Station.beginJob
  split
  · exact .inl rfl
  · rename_i hp
    split
    · rename_i hr
      split
      · exact .inl rfl
      · rename_i hb
        exact .inr ⟨rfl, .of_station (.beginJob _ _ hp hr (by simpa using hb))⟩
    · exact .inl rfl
    · exact .inl rfl

theorem orderEndJob_carried (params : List Byte) : Carried s (orderEndJob i params s) := by
  refine .stationOrder fun a b c d => ?_
  unfold Station.endJob
  split
  · rename_i hr
    split
    · exact .inl rfl
    · rename_i hs
      refine .inr ⟨rfl, .of_station (.endJob hr ?_)⟩
      intro h1 h2
      simpa [h1, h2] using hs
  · exact .inl rfl
  · exact .inl rfl

theorem orderStop_carried (params : List Byte) : Carried s (orderStop i params s) := by
  refine .stationOrder fun _ _ _ _ => ?_
  unfold Station.stop
  split
  · exact .inl rfl
  · exact .inl rfl
  · rename_i hu _
    exact .inr ⟨rfl, .of_station (.stop hu)⟩

theorem orderPark_carried (params : List Byte) : Carried s (orderPark i params s) := by
  unfold orderPark
  split
  · split
    · exact .same _
    · exact .ite_not (.same _) fun hr => .ite_not (.same _) fun hb => .ite_not (.same _) fun hk =>
        .inr ⟨rfl, .single (.park i _ (not_not.mp hr) (by simpa using hb) (by simpa using hk))⟩
  · exact .same _

theorem orderResume_carried (params : List Byte) : Carried s (orderResume i params s) := by
  unfold orderResume
  split
  · split
    · exact .same _
    · refine .ite (.same _) <| .ite_not (.same _) fun hs => .ite_not (.same _) fun hb => ?_
      split
      · exact .same _
      · rename_i r hk
        refine .inr ⟨rfl, .single (.resume i _ r _ ?_ (by simpa using hb) hk ?_)⟩
        · by_contra h
          exact hs (not_or.mp h)
        · split
          · exact .inl rfl
          · rename_i hl
            right
            simp at hl
            exact ⟨rfl, hl.2⟩
  · exact .same _

theorem orderStation_carried (data : List Byte) : Carried s (orderStation i data s) := by
  unfold orderStation
  refine .ite (.same _) ?_
  split
  · exact .same _
  · refine .ite (orderBeginJob_carried _) <| .ite (orderEndJob_carried _) <| .ite ?hold <| .ite ?release <|
      .ite (orderStop_carried _) <| .ite ?reset <| .ite (orderPark_carried _) <| .ite (orderResume_carried _) <|
      .ite ?quota <| .ite ?timer <| .ite ?matchValue (.same _)
    case hold => exact .stationOrder fun _ _ _ _ => .inr ⟨rfl, .of_station .hold⟩
    case release => exact .stationOrder fun _ _ _ _ => .inr ⟨rfl, .of_station .release⟩
    case reset => exact .stationOrder fun _ _ _ _ => .inr ⟨rfl, .of_station (.reset _)⟩
    case quota => exact .stationOrder fun _ _ _ _ => .inr ⟨rfl, .of_station (.quota _)⟩
    case timer => exact .stationOrder fun _ _ _ _ => .inr ⟨rfl, .of_station (.timer _)⟩
    case matchValue => exact .stationOrder fun _ _ _ _ => .inr ⟨rfl, .of_station (.matchValue _)⟩

/-! ### SENSE, REPORT and the DEVICE orders -/

theorem orderSense_carried (data : List Byte) : Carried s (orderSense i data s) := by
  unfold orderSense
  split
  · exact .inr ⟨rfl, (Reach.of_station (.clearBy _)).rest ⟨rfl, rfl, rfl, rfl⟩⟩
  · exact .same _

theorem orderReport_carried (data : List Byte) : Carried s (orderReport i data s) := by
  unfold orderReport
  split
  · refine .atStation ?_
    unfold Station.report
    split
    · exact .inr ⟨rfl, .of_station (.report _)⟩
    · exact .inl rfl
  · exact .same _

theorem orderAttentionSetup_carried (params : List Byte) : Carried s (orderAttentionSetup params s) := by
  unfold orderAttentionSetup
  split
  · split
    · exact .same _
    · split
      · exact .inr ⟨rfl, .of_alike ⟨rfl, rfl, rfl, rfl⟩⟩
      · exact .same _
  · exact .same _

theorem Reach.foldl {α : Type} {f : State → α → State} (hf : ∀ s a, Reach s (f s a)) :
    ∀ (l : List α) (s : State), Reach s (l.foldl f s)
  | [], _ => .refl
  | a :: l, s => (hf s a).trans (Reach.foldl hf l (f s a))

theorem Reach.applySetup (x : ImagerSetup) : Reach s (s.applySetup x) := by
  have h : Reach s { s with port := { s.port with setup := x } } := .of_alike ⟨rfl, rfl, rfl, rfl⟩
  exact h.trans (Reach.foldl (fun _ l => Reach.takeRaw l) _ _)

theorem orderImagerSetup_carried (params : List Byte) : Carried s (orderImagerSetup params s) := by
  unfold orderImagerSetup
  split
  · exact .same _
  · split
    · exact .same _
    · exact .done rfl (Reach.applySetup _)

/-- A park slot emptied, its references released. -/
def State.emptyPark (s : State) (k : Fin 4) : State :=
  { s with parks := s.parks.set k none, library := { s.library with refs := s.library.refs.releasePark s.parks[k] } }

/-- DEVICE CLEAR empties the four park slots one after another. -/
theorem State.deviceClear_alike (s : State) :
    State.Alike ((((s.mapStations fun st => { st.reset s.port.debounced.hold with queue := [] }).emptyPark 0).emptyPark
      1).emptyPark 2 |>.emptyPark 3) s.deviceClear where
  stations := rfl
  parks := by
    ext k hk x
    have : k = 0 ∨ k = 1 ∨ k = 2 ∨ k = 3 := by omega
    rcases this with rfl | rfl | rfl | rfl <;> simp [State.deviceClear, State.emptyPark]
  library := by simp [State.deviceClear, State.emptyPark]
  pending := rfl

theorem Reach.deviceClear : Reach s s.deviceClear := by
  have stations : Reach s (s.mapStations fun st => { st.reset s.port.debounced.hold with queue := [] }) :=
    .mapStations fun u i => by
      have := (Reach.of_station (s := u) (i := i) (.reset s.port.debounced.hold)).setStation .freeAll
      rwa [State.station_setStation_same] at this
  have park : ∀ {u : State} (k : Fin 4), Reach s u → Reach s (u.emptyPark k) := fun k h => h.tail (.emptyPark k)
  exact (park 3 (park 2 (park 1 (park 0 stations)))).rest s.deviceClear_alike

theorem orderDeviceClear_carried (params : List Byte) : Carried s (orderDeviceClear params s) := by
  unfold orderDeviceClear
  split
  · exact .inr ⟨rfl, Reach.deviceClear⟩
  · exact .same _

theorem orderDevice_carried (data : List Byte) : Carried s (orderDevice data s) := by
  unfold orderDevice
  split
  · exact .same _
  · exact .ite (orderAttentionSetup_carried _) <| .ite (orderImagerSetup_carried _) <|
      .ite (orderDeviceClear_carried _) <| .ite (orderLibraryClear_carried _) (.same _)

theorem carryOut_carried (l : Lead) (data : List Byte) (s : State) : Carried s (carryOut l data s) :=
  .ite (orderPrint_carried ..) <| .ite (orderMove_carried ..) <| .ite (orderSelect_carried _) <|
    .ite (orderLoadDrum_carried _) <| .ite (orderLoadTape_carried _) <| .ite (orderLoadLayout_carried _) <|
    .ite (orderLoadCollation_carried _) <| .ite (orderLoadConditions_carried _) <| .ite (orderStation_carried _) <|
    .ite (orderSense_carried _) <| .ite (orderReport_carried _) <| .ite (orderDevice_carried _) <|
    .ite (.same _) (.same _)

/-! ## The link -/

theorem Reach.answerFrame (l : Lead) (data : List Byte) (sum : Byte) : Reach s (s.answerFrame l data sum) := by
  unfold State.answerFrame
  split
  · exact (carryOut_carried l data s).reach.of_owe l _
  · exact Reach.of_owe .refl l _

theorem Reach.takeByte (b : Byte) : Reach s (s.takeByte b) := by
  unfold State.takeByte
  split
  · exact .setReceive _ _
  · unfold State.frameByte
    split
    · simp only
      split
      · exact .setReceive _ _
      · split
        · exact .answerFrame _ _ _
        · exact .setReceive _ _
    · exact .setReceive _ _
  · exact .setReceive _ _
  · exact .refl
  · exact .refl

theorem Reach.receiveOrder (h : Head) (code : BitVec 5) (data : List Byte) : Reach s (s.receiveOrder h code data) := by
  have bytes : Reach s ((frameBytes ⟨h.station, h.seq, code⟩ data h.sum).foldl State.takeByte s) :=
    Reach.foldl (fun _ b => Reach.takeByte b) _ _
  unfold State.receiveOrder
  simp only
  split
  · split
    · exact .answerFrame _ _ _
    · exact bytes
  · exact bytes

theorem Reach.interByteExpiry : Reach s s.interByteExpiry := by
  unfold State.interByteExpiry
  split
  · split
    · exact Reach.of_owe .refl _ _
    · exact Reach.of_owe .refl _ _
    · exact .refl
  · exact .refl

theorem Reach.readStatus : Reach s s.readStatus := by
  unfold State.readStatus
  split
  · exact .of_alike ⟨rfl, rfl, rfl, rfl⟩
  · exact .of_alike ⟨rfl, rfl, rfl, rfl⟩
  · exact .refl

theorem Reach.linkReset : Reach s s.linkReset := by
  have h : Reach s (s.mapStations fun st => { st with expected := false }) :=
    .mapStations fun _ _ => .of_station .expectZero
  exact h.rest ⟨rfl, rfl, rfl, rfl⟩

theorem Reach.linkRelease : Reach s s.linkRelease := by
  unfold State.linkRelease
  split
  · exact .setReceive _ _
  · exact .refl

/-! ## Every command -/

/-- A command that is no order answers a state reached by changes. -/
theorem exec_event_reaches {c : Instr} (hc : orderFrame c = none) (s : State) : ∃ t, exec c s = .next t ∧ Reach s t := by
  have arb : ∀ {f : State → State}, (∀ u, Reach u (f u)) → Reach s (f s.arbitrate) :=
    fun hf => (Reach.arbitrate s).trans (hf _)
  cases c with
  | powerOn => exact ⟨_, rfl, Reach.rest (.single .powerOn) ⟨rfl, rfl, rfl, rfl⟩⟩
  | linkReset => exact ⟨_, rfl, arb fun _ => .linkReset⟩
  | linkResetRelease => exact ⟨_, rfl, arb fun _ => .linkRelease⟩
  | endingStatusRead => exact ⟨_, rfl, arb fun _ => .readStatus⟩
  | interByteTimerExpiry => exact ⟨_, rfl, arb fun _ => .interByteExpiry⟩
  | idleTimerExpiry i => exact ⟨_, rfl, arb fun _ => .idleExpiry i⟩
  | rawLevelChange l b => exact ⟨_, rfl, .rawChange l b⟩
  | debouncedReadyFall => exact ⟨_, rfl, (Reach.beforeLine _ _).trans (Reach.debouncedEvent _ _)⟩
  | debouncedReadyRise => exact ⟨_, rfl, arb fun _ => .debouncedEvent _ _⟩
  | debouncedFaultRise => exact ⟨_, rfl, (Reach.beforeLine _ _).trans (Reach.debouncedEvent _ _)⟩
  | debouncedFaultFall => exact ⟨_, rfl, arb fun _ => .debouncedEvent _ _⟩
  | debouncedCoverChange b => exact ⟨_, rfl, arb fun _ => .debouncedEvent _ _⟩
  | debouncedMediaLowChange b => exact ⟨_, rfl, arb fun _ => .debouncedEvent _ _⟩
  | holdSwitchOn => exact ⟨_, rfl, arb fun _ => .debouncedEvent _ _⟩
  | holdSwitchOff => exact ⟨_, rfl, arb fun _ => .debouncedEvent _ _⟩
  | arbiterChoice => exact ⟨_, rfl, .arbitrate s⟩
  | pageCloseSent => exact ⟨_, rfl, arb fun _ => .pageCloseSent⟩
  | pageVoidSent => exact ⟨_, rfl, arb fun _ => .pageVoidSent⟩
  | taken sum => exact ⟨_, rfl, arb fun _ => .checkedReply sum fun _ => .replyTaken⟩
  | refused reason sum => exact ⟨_, rfl, arb fun _ => .checkedReply sum fun _ => .replyRefused⟩
  | imaged station page sum => exact ⟨_, rfl, arb fun _ => .checkedReply sum fun _ => .replyImaged _ _⟩
  | spoiled station page sum => exact ⟨_, rfl, arb fun _ => .checkedReply sum fun _ => .replySpoiled _ _⟩
  | replyTimerExpiry => exact ⟨_, rfl, arb fun _ => .portTimeout _⟩
  | imagingTimerExpiry => exact ⟨_, rfl, arb fun _ => .portTimeout _⟩
  | imagerLinkQuietTest bytes => exact ⟨_, rfl, .readImagerBytes bytes s⟩
  | byteTaken b => exact ⟨_, rfl, arb fun _ => .takeByte b⟩
  | _ => simp [orderFrame] at hc

/-- An order row answers a state reached by changes. -/
theorem exec_order_reaches {c : Instr} {f : OrderFrame} (hc : orderFrame c = some f) (s : State) :
    ∃ t, exec c s = .next t ∧ Reach s t := by
  have order : ∀ h code data, Reach s (s.arbitrate.receiveOrder h code data) := fun h code data =>
    (Reach.arbitrate s).trans (Reach.receiveOrder h code data)
  cases c <;> simp only [orderFrame, reduceCtorEq] at hc <;> exact ⟨_, rfl, order _ _ _⟩

/-- Every command answers a state reached by changes. -/
theorem exec_reaches (c : Instr) (s : State) : ∃ t, exec c s = .next t ∧ Reach s t := by
  cases hc : orderFrame c with
  | none => exact exec_event_reaches hc s
  | some f => exact exec_order_reaches hc s

theorem Change.pending (h : Change s t) : t.pending = s.pending := by
  cases h with
  | rest h => exact h.pending
  | _ => rfl

theorem Reach.pending (h : Reach s t) : t.pending = s.pending := by
  induction h with
  | refl => rfl
  | tail _ h ih => exact h.pending.trans ih

/-- A law of whole states that every change keeps, and that does not read the waiting commands, is kept by every step. -/
theorem step_keeps {law : State → Prop} (hq : ∀ s q, law s → law (s.setPending q))
    (hc : ∀ s t, Change s t → law s → law t) {s t : State} (hs : law s) (ht : step s = .next t) : law t := by
  have reach : ∀ {s t}, Reach s t → law s → law t := by
    intro s t h hs
    induction h with
    | refl => exact hs
    | tail _ h ih => exact hc _ _ h ih
  unfold step at ht
  split at ht
  · cases ht
    exact hs
  · rename_i c q _
    obtain ⟨u, hu, hr⟩ := exec_reaches c (s.setPending q)
    rw [hu] at ht
    cases ht
    exact reach hr (hq s q hs)

end Sys2Proof.Machine
end

section
/-! SUPPORT. Laws of a station that every change keeps: stop codes and hold causes (R2, R5), the idle timer (R21) and
DRAINING (R10). -/

namespace Sys2Proof.Machine

variable {s t : State} {i : StationId} {st : Station}

/-! ## Laws of every station -/

theorem State.allStations_iff (s : State) (f : Station → Bool) :
    s.allStations f = true ↔ ∀ i, f (s.station i) = true := by
  simp only [State.allStations, Bool.and_eq_true, Fin.forall_fin_succ]
  simp [and_assoc]

/-- `P` is a law of single stations: power-on gives it and every change of a station keeps it. -/
structure StationLaw (P : Station → Prop) : Prop where
  powerOn : P Station.powerOn
  change : ∀ {s : State} {i : StationId} {st : Station}, StationChange s i st → P (s.station i) → P st
  select : ∀ (new : Selections) (st : Station), st.state ≠ .draining → st.busy = false → P st → P (st.select new)
  park : ∀ st : Station, st.state = .ready → st.busy = false → P st → P st.parked
  resume : ∀ (r : ParkRecord) (line : Nat) (st : Station), st.state = .unloaded ∨ st.state = .ready → st.busy = false →
    P st → P (st.resumed r line)

theorem State.station_congr (h : t.stations = s.stations) (i : StationId) : t.station i = s.station i := by
  simp [State.station, h]

@[simp] theorem State.reset_station (i : StationId) : State.reset.station i = Station.powerOn := by
  simp [State.station, State.reset]

theorem State.forall_setStation {P : Station → Prop} (hs : ∀ j, P (s.station j)) (h : P st) (j : StationId) :
    P ((s.setStation i st).station j) := by
  rw [State.station_setStation]
  split
  · exact h
  · exact hs j

theorem StationLaw.keeps {P : Station → Prop} (law : StationLaw P) (h : Change s t) (hs : ∀ i, P (s.station i)) :
    ∀ i, P (t.station i) := by
  cases h with
  | rest h =>
    intro i
    rw [State.station_congr h.stations]
    exact hs i
  | station h => exact State.forall_setStation hs (law.change h (hs _))
  | select i d t l c hd hb => exact State.forall_setStation hs (law.select _ _ hd hb (hs i))
  | park i k hr hb => exact State.forall_setStation hs (law.park _ hr hb (hs i))
  | resume i k r line hu hb => exact State.forall_setStation hs (law.resume r line _ hu hb (hs i))
  | powerOn =>
    intro i
    exact (State.reset_station i).symm ▸ law.powerOn
  | _ => exact hs

/-- Every step keeps a law of single stations. -/
theorem StationLaw.step {P : Station → Prop} (law : StationLaw P) (hs : ∀ i, P (s.station i)) (ht : step s = .next t) :
    ∀ i, P (t.station i) :=
  step_keeps (law := fun s => ∀ i, P (s.station i)) (fun _ _ h => h) (fun _ _ => law.keeps) hs ht

/-! ## What a line and a reply leave of a station -/

/-- A taken line order leaves the station where its work left it, but for the expected bit and the idle timer. -/
theorem takeLineOrder_station (t : Tools) (c : Control) (bytes : Option (List Byte)) (st : Station) :
    (takeLineOrder t c bytes st).1 =
      Station.restartIdle { (lineWork t c bytes st).st with expected := !(lineWork t c bytes st).st.expected } := rfl

/-- The drain test leaves the station alone, or takes a DRAINING one to READY or HELD (R10). -/
theorem Station.drainTest_cases (st : Station) :
    st.drainTest = st ∨ st.state = .draining ∧ st.holdings = 0 ∧
      st.drainTest = Station.reachReady { st with causes := { st.causes with drained := true } } := by
  unfold Station.drainTest
  split
  · rename_i h
    exact .inr ⟨h.1, h.2, rfl⟩
  · exact .inl rfl

/-- A station after END JOB is STOPPED as its work left it, DRAINING while it owns slots, or has drained (R9). -/
theorem Station.finishJob_cases (st : Station) :
    let st1 := { st with line := 1, overflow := false, carry := none, idle := .off }
    st.state = .stopped ∧ st.finishJob = st1 ∨
    st.state ≠ .stopped ∧ st.holdings ≠ 0 ∧ st.finishJob = { st1 with state := .draining } ∨
    st.state ≠ .stopped ∧ st.holdings = 0 ∧
      st.finishJob = Station.reachReady { st1 with causes := { st1.causes with drained := true } } := by
  unfold Station.finishJob
  simp only
  split
  · rename_i h
    exact .inl ⟨h, rfl⟩
  · rename_i h
    split
    · rename_i hh
      exact .inr (.inl ⟨h, hh, rfl⟩)
    · rename_i hh
      exact .inr (.inr ⟨h, not_not.mp hh, rfl⟩)

theorem Station.reachReady_eq (st : Station) :
    st.reachReady = { st with state := if st.holds.isEmpty then .ready else .held } := rfl

/-- The station a STATION RESET leaves (R14). -/
theorem Station.reset_eq (b : Bool) (st : Station) : st.reset b = { st with
    state := if st.sel.complete then (if b then .held else .ready) else .unloaded
    holds := ⟨false, false, b⟩, stopCode := .none, line := 1, overflow := false, job := 0, page := 1, expected := false
    counters := Counters.zero, carry := none, idle := .off, reports := [], strikes := emptyLine
    record := CondRecord.clear, openPage := none } := by
  unfold Station.reset
  cases st.sel.complete <;> cases b <;> rfl

@[simp] theorem Library.tools_table (lib : Library) (sel : Selections) : (lib.tools sel).table = lib.dispositions := rfl

/-! ## Stop codes and hold causes (R2, R5) -/

/-- A stop code stands exactly under STOPPED, no hold cause under READY and some under HELD. -/
def Station.steady (st : Station) : Prop :=
  (st.stopCode ≠ .none ↔ st.state = .stopped) ∧ (st.state = .ready → st.holds.isEmpty = true) ∧
  (st.state = .held → st.holds.isEmpty = false)

theorem Station.steady_iff (st : Station) : st.steady ↔ st.stopCodeAgrees = true ∧ st.holdsAgree = true := by
  have hc : st.stopCodeAgrees = true ↔ (st.stopCode ≠ .none ↔ st.state = .stopped) := by
    rw [Station.stopCodeAgrees, beq_iff_eq, Bool.eq_iff_iff, bne_iff_ne, beq_iff_eq]
  rw [hc]
  simp [Station.steady, Station.holdsAgree, imp_iff_not_or]

theorem Station.steady_raise (table : Dispositions) (e : CondEntry) (h : st.steady) : (st.raise table e).steady := by
  obtain ⟨hc, hr, hh⟩ := h
  rcases st.raise_cases table e with ⟨h1, h2, h3, -⟩ | ⟨h0, h1, h2, h3, -⟩ | ⟨h0, hs, h1, h2, h3, -⟩ | ⟨hs, h1, h2, h3, -⟩ <;>
    unfold Station.steady
  · rw [h1, h2, h3]
    exact ⟨hc, hr, hh⟩
  · have hn : st.stopCode = .none := by simpa [h0] using hc
    simp [h1, h2, h3, hn, Holds.isEmpty]
  · simp [h0, h1, h2, h3, hc, Holds.isEmpty]
  · rcases h3 with h3 | h3 <;> simp [h1, h3]

/-- Stop code and hold causes stand right after any line's work. -/
theorem lineStable_steady (t : Tools) : LineStable t Station.steady where
  raise e _ h := Station.steady_raise t.table e h
  strikes _ _ h := h
  lines _ _ h := h
  place _ _ _ h := h
  close _ _ _ h := h
  blank _ h := h
  count _ h := h
  carriage _ _ _ h := h

/-- A station that is not STOPPED is steady when it reaches READY or HELD. -/
theorem Station.steady_reachReady (hn : st.stopCode = .none) : st.reachReady.steady := by
  cases hh : st.holds.isEmpty <;> simp [Station.steady, Station.reachReady, hn, hh]

theorem Station.steady.stopCode_none (h : st.steady) (hs : st.state ≠ .stopped) : st.stopCode = .none := by
  by_contra hc
  exact hs (h.1.mp hc)

theorem Station.steady_finishJob (h : st.steady) : st.finishJob.steady := by
  rcases st.finishJob_cases with ⟨-, he⟩ | ⟨hs, -, he⟩ | ⟨hs, -, he⟩ <;> rw [he]
  · exact h
  · simp [Station.steady, h.stopCode_none hs]
  · exact Station.steady_reachReady (h.stopCode_none hs)

theorem Station.steady_addHolds {x : Holds} (hx : x.isEmpty = false) (h : st.steady) : (st.addHolds x).steady := by
  rcases st.addHolds_cases x with ⟨he, hs⟩ | ⟨he, hs⟩ <;> rw [he]
  · have := h.stopCode_none (by simp [hs])
    simp [Station.steady, hx, this]
  · exact ⟨h.1, fun hr => absurd hr hs, fun _ => hx⟩

/-- Removing hold causes keeps a station steady. -/
theorem Station.steady_removeHolds {x : Holds} (hx : st.holds.isEmpty = true → x.isEmpty = true) (h : st.steady) :
    (st.removeHolds x).steady := by
  rcases st.removeHolds_cases x with ⟨he, hs, hx'⟩ | ⟨he, hn⟩ <;> rw [he]
  · have := h.stopCode_none (by simp [hs])
    simp [Station.refreshIdle_eq, Station.steady, hx', this]
  · refine ⟨h.1, fun hr => hx (h.2.1 hr), fun hs => ?_⟩
    simpa [show st.state = .held from hs] using hn

theorem Station.steady_reset (b : Bool) (st : Station) : (st.reset b).steady := by
  unfold Station.reset
  simp only
  split
  · exact Station.steady_reachReady rfl
  · simp [Station.steady]

theorem Station.steady_drainTest (h : st.steady) : st.drainTest.steady := by
  rcases st.drainTest_cases with he | ⟨hs, -, he⟩ <;> rw [he]
  · exact h
  · exact Station.steady_reachReady (h.stopCode_none (by simp [hs]))

theorem StationChange.steady (hc : StationChange s i st) (h : (s.station i).steady) : st.steady := by
  cases hc with
  | line c bytes hr hs => exact (lineStable_steady _).lineWork c bytes h
  | raise e => exact Station.steady_raise _ e h
  | endJob hr hs => exact Station.steady_finishJob ((lineStable_steady _).endJobWork h)
  | hold => exact Station.steady_addHolds (by simp [Holds.isEmpty]) h
  | release =>
    refine Station.steady_removeHolds (fun hx => ?_) h
    simp only [Holds.isEmpty, Bool.and_eq_true] at hx ⊢
    simp [hx.2]
  | panel on =>
    cases on with
    | true => exact Station.steady_addHolds (by simp [Holds.isEmpty]) h
    | false =>
      refine Station.steady_removeHolds (fun hx => ?_) h
      simp only [Holds.isEmpty, Bool.and_eq_true] at hx ⊢
      simp [hx.1]
  | stop hu => simp [Station.steady, Station.stopWith]
  | reset on => exact Station.steady_reset on _
  | imaged hq => exact Station.steady_drainTest h
  | refused hq => exact Station.steady_drainTest (Station.steady_raise _ _ h)
  | _ => exact h

theorem stationLaw_steady : StationLaw Station.steady where
  powerOn := by simp [Station.steady, Station.powerOn]
  change := StationChange.steady
  select new st _ _ h := by
    unfold Station.select
    simp only
    split
    · rename_i hu
      exact Station.steady_reachReady (h.stopCode_none (by simp [hu.1]))
    · exact h
  park st hr _ h := by
    have := h.stopCode_none (by simp [hr])
    simp [Station.steady, Station.parked, this]
  resume r line st hs _ h := Station.steady_reachReady (h.stopCode_none (by rcases hs with hs | hs <;> simp [hs]))

theorem State.steady_iff (s : State) :
    (s.stopCodesAgree && s.holdsAgree) = true ↔ ∀ i, (s.station i).steady := by
  simp only [Bool.and_eq_true, State.stopCodesAgree, State.holdsAgree, State.allStations_iff, Station.steady_iff,
    forall_and]

/-- Settles O5: a law of single stations. -/
theorem stepKeepsStatesAndHolds : Obligations.StepKeepsStatesAndHolds := by
  intro s t hs ht
  rw [State.steady_iff] at hs ⊢
  exact stationLaw_steady.step hs ht

/-! ## The idle timer and DRAINING (R10, R21) -/

/-- The idle timer is on exactly under the running condition, and a DRAINING station composes nothing. -/
def Station.timed (st : Station) : Prop :=
  (st.idle ≠ .off ↔ st.meetsRunning = true) ∧ (st.state = .draining → st.busy = false)

theorem Station.timed_iff (st : Station) : st.timed ↔ st.idleAgrees = true := by
  have hi : ((st.idle != .off) == st.meetsRunning) = true ↔ (st.idle ≠ .off ↔ st.meetsRunning = true) := by
    rw [beq_iff_eq, Bool.eq_iff_iff, bne_iff_ne]
  rw [Station.idleAgrees, Bool.and_eq_true, hi]
  simp [Station.timed, imp_iff_not_or]

theorem Station.meetsRunning_iff (st : Station) :
    st.meetsRunning = true ↔ st.timerSetting ≠ 0 ∧ st.state = .ready ∧ st.busy = true := by
  simp [Station.meetsRunning, and_assoc]

theorem Station.not_meetsRunning_of_state (h : st.state ≠ .ready) : ¬ st.meetsRunning = true := by
  simp [Station.meetsRunning_iff, h]

theorem Station.not_meetsRunning_of_busy (h : st.busy = false) : ¬ st.meetsRunning = true := by
  simp [Station.meetsRunning_iff, h]

theorem Station.timed_of_idle (hi : st.idle = .off) (hs : st.state ≠ .ready ∨ st.busy = false)
    (hd : st.state = .draining → st.busy = false) : st.timed := by
  refine ⟨?_, hd⟩
  rcases hs with h | h
  · simp [hi, Station.not_meetsRunning_of_state h]
  · simp [hi, Station.not_meetsRunning_of_busy h]

/-- A timer started afresh is right at a station that does not drain with work on it. -/
theorem Station.timed_restartIdle (hd : st.state = .draining → st.busy = false) : st.restartIdle.timed := by
  refine ⟨?_, hd⟩
  have h : st.restartIdle.meetsRunning = st.meetsRunning := rfl
  rw [h, Station.restartIdle_eq]
  cases st.meetsRunning <;> simp

theorem Station.timed_refreshIdle (hd : st.state = .draining → st.busy = false) : st.refreshIdle.timed := by
  rw [Station.refreshIdle_eq]
  refine ⟨?_, hd⟩
  have h : ∀ x, Station.meetsRunning { st with idle := x } = st.meetsRunning := fun _ => rfl
  cases hm : st.meetsRunning
  · simp [h, hm]
  · by_cases hi : st.idle = .off <;> simp [h, hm, hi]

theorem Station.timed_raise (table : Dispositions) (e : CondEntry) (h : st.timed) : (st.raise table e).timed := by
  obtain ⟨hi, hd⟩ := h
  have hb := st.raise_busy table e
  rcases st.raise_cases table e with ⟨h1, -, -, h4⟩ | ⟨-, h1, -, -, h4⟩ | ⟨-, -, h1, -, -, h4⟩ | ⟨-, h1, -, -, h4⟩
  · refine ⟨?_, by rwa [h1, hb]⟩
    rwa [Station.meetsRunning_iff, h1, h4, hb, Station.raise_timerSetting, ← Station.meetsRunning_iff]
  · exact Station.timed_of_idle h4 (.inl (by simp [h1])) (by simp [h1])
  · refine ⟨?_, by rwa [h1, hb]⟩
    rwa [Station.meetsRunning_iff, h1, h4, hb, Station.raise_timerSetting, ← Station.meetsRunning_iff]
  · exact Station.timed_of_idle h4 (.inl (by simp [h1])) (by simp [h1])

/-- A line's work never leaves a station DRAINING that was not. -/
theorem lineStable_notDraining (t : Tools) : LineStable t fun st => st.state ≠ .draining where
  raise e st h := by
    rcases st.raise_cases t.table e with ⟨h1, -⟩ | ⟨-, h1, -⟩ | ⟨-, -, h1, -⟩ | ⟨-, h1, -⟩ <;> simp [h1, h]
  strikes _ _ h := h
  lines _ _ h := h
  place _ _ _ h := h
  close _ _ _ h := h
  blank _ h := h
  count _ h := h
  carriage _ _ _ h := h

theorem Station.hasStrikes_of_emptyLine (h : st.strikes = emptyLine) : st.hasStrikes = false := by
  simp [Station.hasStrikes, h, emptyLine, Position.empty]

@[simp] theorem closePage_openPage (t : Tools) (b : Bool) (p : Page) (w : Work) :
    (closePage t b p w).st.openPage = none := rfl

theorem seamChain_st {α : Type} {f : Station → α} {tl : Tools}
    (hr : ∀ e st, f (Station.raise tl.table e st) = f st) (ws : List Window) (cs : List ColumnRecord) (n : Nat)
    (k : Option Key) (w : Work) : f (seamChain tl n ws cs k w).2.st = f w.st :=
  seamChain_keeps (Q := fun w' => f w'.st = f w.st) (fun e w' h => (hr e w'.st).trans h) ws cs n k w rfl

@[simp] theorem closePage_strikes (t : Tools) (b : Bool) (p : Page) (w : Work) :
    (closePage t b p w).st.strikes = w.st.strikes := by
  unfold closePage completePage
  split
  · rfl
  · exact seamChain_st (f := Station.strikes) (fun e st => st.raise_strikes t.table e) _ _ _ _ _

@[simp] theorem commit_strikes (t : Tools) (w : Work) : (commit t w).st.strikes = emptyLine := rfl

/-- END JOB's work leaves nothing composed (R9). -/
theorem endJobWork_not_busy (t : Tools) (st : Station) :
    (endJobWork t st).st.openPage = none ∧ (endJobWork t st).st.strikes = emptyLine := by
  unfold endJobWork
  simp only
  split
  · rename_i h
    exact ⟨h, rfl⟩
  · simp [Station.countPage]

/-- A station is busy with its open page or its strikes. -/
theorem Station.busy_eq_false_iff (st : Station) : st.busy = false ↔ st.openPage = none ∧ st.hasStrikes = false := by
  simp [Station.busy]

theorem Station.timed_drainTest (h : st.timed) : st.drainTest.timed := by
  rcases st.drainTest_cases with he | ⟨hs, -, he⟩ <;> rw [he]
  · exact h
  · have hb := h.2 hs
    have hi : st.idle = .off := by
      by_contra hi
      exact Station.not_meetsRunning_of_busy hb (h.1.mp hi)
    exact Station.timed_of_idle hi (.inr hb) fun _ => hb

theorem Station.timed_finishJob (hb : st.busy = false) : st.finishJob.timed := by
  rcases st.finishJob_cases with ⟨-, he⟩ | ⟨-, -, he⟩ | ⟨-, -, he⟩ <;> rw [he] <;>
    exact Station.timed_of_idle rfl (.inr hb) fun _ => hb

theorem Station.timed_addHolds (x : Holds) (h : st.timed) : (st.addHolds x).timed := by
  rcases st.addHolds_cases x with ⟨he, -⟩ | ⟨he, -⟩ <;> rw [he]
  · exact Station.timed_of_idle rfl (.inl (by simp)) (by simp)
  · exact h

theorem Station.timed_removeHolds (x : Holds) (h : st.timed) : (st.removeHolds x).timed := by
  rcases st.removeHolds_cases x with ⟨he, -, -⟩ | ⟨he, -⟩ <;> rw [he]
  · exact Station.timed_refreshIdle (by simp)
  · exact h

theorem Station.timed_reset (b : Bool) (st : Station) : (st.reset b).timed := by
  have hb : (st.reset b).busy = false := by
    rw [Station.reset_eq, Station.busy_eq_false_iff]
    exact ⟨rfl, Station.hasStrikes_of_emptyLine rfl⟩
  exact Station.timed_of_idle (by rw [Station.reset_eq]) (.inr hb) fun _ => hb

/-- A timer that was off stays right at a station without work. -/
theorem Station.timed.idle_off (h : st.timed) (hb : st.busy = false) : st.idle = .off := by
  by_contra hi
  exact Station.not_meetsRunning_of_busy hb (h.1.mp hi)

theorem StationChange.timed (hc : StationChange s i st) (h : (s.station i).timed) : st.timed := by
  cases hc with
  | line c bytes hr hs =>
    refine Station.timed_restartIdle fun hd => absurd hd ?_
    exact (lineStable_notDraining _).lineWork c bytes (by simp [hr])
  | raise e => exact Station.timed_raise _ e h
  | expire hr =>
    refine ⟨?_, h.2⟩
    have := h.1
    simp only [hr, ne_eq, reduceCtorEq, not_false_eq_true, true_iff] at this ⊢
    exact this
  | endJob hr hs =>
    obtain ⟨hp, hk⟩ := endJobWork_not_busy (s.library.tools (s.station i).sel) (s.station i)
    exact Station.timed_finishJob ((Station.busy_eq_false_iff _).mpr ⟨hp, Station.hasStrikes_of_emptyLine hk⟩)
  | hold => exact Station.timed_addHolds _ h
  | release => exact Station.timed_removeHolds (st := { s.station i with record := _ }) _ h
  | panel on =>
    cases on with
    | true => exact Station.timed_addHolds _ h
    | false => exact Station.timed_removeHolds _ h
  | stop hu => exact Station.timed_of_idle rfl (.inl (by simp [Station.stopWith])) (by simp [Station.stopWith])
  | reset on => exact Station.timed_reset on _
  | timer b => exact Station.timed_restartIdle h.2
  | imaged hq => exact Station.timed_drainTest h
  | refused hq => exact Station.timed_drainTest (Station.timed_raise _ _ h)
  | _ => exact h

theorem stationLaw_timed : StationLaw Station.timed where
  powerOn := Station.timed_of_idle rfl (.inl (by simp [Station.powerOn])) (by simp [Station.powerOn])
  change := StationChange.timed
  select new st _ hb h := by
    unfold Station.select
    simp only
    split
    · exact Station.timed_of_idle (h.idle_off hb) (.inr hb) fun _ => hb
    · exact h
  park st hr _ h := Station.timed_of_idle rfl (.inl (by simp [Station.parked])) (by simp [Station.parked])
  resume r line st hs hb h := by
    have hb' : (st.resumed r line).busy = false := by
      rw [Station.busy_eq_false_iff] at hb ⊢
      exact ⟨hb.1, Station.hasStrikes_of_emptyLine rfl⟩
    exact Station.timed_of_idle rfl (.inr hb') fun _ => hb'

/-- Settles O6: a law of single stations. -/
theorem stepKeepsIdleTimers : Obligations.StepKeepsIdleTimers := by
  intro s t hs ht
  simp only [State.idleAgrees, State.allStations_iff, ← Station.timed_iff] at hs ⊢
  exact stationLaw_timed.step hs ht

end Sys2Proof.Machine
end

section
/-! SUPPORT. The statements about every command and about orders that are turned away. -/

namespace Sys2Proof.Machine

/-- Settles O2: every command is a chain of changes, none of which touches the waiting commands. -/
theorem everyCommandAnswersNext : Obligations.EveryCommandAnswersNext := by
  intro c s
  obtain ⟨t, ht, hr⟩ := exec_reaches c s
  exact ⟨t, ht, hr.pending⟩

/-- Settles O15: a frame with a wrong check byte leaves the owed status alone, and an order that does not answer DONE leaves
the state as it was. -/
theorem undoneOrderChangesNothing : Obligations.UndoneOrderChangesNothing := by
  intro c f s t result rest hf ha hd hl ht hr hres
  rw [exec_of_orderFrame hf ha hl, State.arbitrate_of_not_due _ hd] at ht
  cases ht
  by_cases hs : f.sum = 0
  · rw [hs, State.answerFrame_right] at hr ⊢
    have hdone : (carryOut f.lead f.data s).2.result ≠ .done := by
      intro h
      rw [State.owe_receive, State.statusTail] at hr
      simp only [List.cons_append, Receive.statusOwed.injEq, List.cons.injEq, h] at hr
      exact hres hr.2.1.symm
    rw [(carryOut_carried f.lead f.data s).undone hdone]
    rfl
  · rw [State.answerFrame_wrong hs]
    rfl

end Sys2Proof.Machine
end

section
/-! SUPPORT. Where the work of a line leaves the carriage: the commit moves nothing, and the motions end on the form (R33 to
R38). -/

namespace Sys2Proof.Machine

variable {t : Tools} {w : Work}

/-! ## The commit (R56) -/

/-- What a commit and a raising leave alone: the carriage, the page number, the carry key, the reports, the queue and the
counts of pages. -/
def Station.ground (st : Station) : Nat × Bool × Half × Option Key × List Summary × List Page × Word × Word :=
  (st.line, st.overflow, st.page, st.carry, st.reports, st.queue, st.counters.closed, st.counters.imaged)

@[simp] theorem Station.raise_ground (table : Dispositions) (e : CondEntry) (st : Station) :
    (st.raise table e).ground = st.ground := by
  simp [Station.ground]

/-- Placing a line keeps what raising a condition and filing the line keep. -/
theorem takeLine_keeps {Q : Work → Prop} (hr : ∀ e w, Q w → Q (w.raise t.table e))
    (hp : ∀ p c w, Q w → Q { w with st := { w.st with
      openPage := some p, counters := { w.st.counters with listings := c } } })
    (cells : List Cell) (p : Page) (hw : Q w) : Q (takeLine t cells p w) := by
  unfold takeLine
  lift_lets
  intro line y foot placed dropped w1 p1 v p2 st
  have h1 : Q w1 := by
    dsimp only [w1]
    split
    · exact hr _ _ hw
    · split
      · exact hw
      · exact hr _ _ hw
  have h2 : Q v.2 := visitWindows_keeps hr cells _ _ _ _ h1
  split
  · exact hp _ _ _ h2
  · exact hp _ v.2.st.counters.listings _ h2

/-- A commit keeps what raising a condition, counting the line, placing it and emptying the pending line keep. -/
theorem commit_keeps {Q : Work → Prop} (hr : ∀ e w, Q w → Q (w.raise t.table e))
    (hs : ∀ v w, Q w → Q { w with st := { w.st with strikes := v } })
    (hl : ∀ c w, Q w → Q { w with st := { w.st with counters := { w.st.counters with lines := c } } })
    (hp : ∀ p c w, Q w → Q { w with st := { w.st with
      openPage := some p, counters := { w.st.counters with listings := c } } })
    (hw : Q w) : Q (commit t w) := by
  have h1 : ∀ p, Q (raiseAt t .strikeClash p w) := fun p => raiseAt_keeps hr _ p hw
  unfold commit
  simp only
  refine hs _ _ ?_
  split
  · exact h1 _
  · exact takeLine_keeps hr hp _ _ (hl _ _ (h1 _))

@[simp] theorem commit_ground (t : Tools) (w : Work) : (commit t w).st.ground = w.st.ground :=
  commit_keeps (Q := fun x => x.st.ground = w.st.ground) (fun e x h => (x.st.raise_ground t.table e).trans h)
    (fun _ _ h => h) (fun _ _ h => h) (fun _ _ _ h => h) rfl

@[simp] theorem commit_closed (t : Tools) (w : Work) : (commit t w).closed = w.closed :=
  commit_keeps (Q := fun x => x.closed = w.closed) (fun _ _ h => h) (fun _ _ h => h) (fun _ _ h => h) (fun _ _ _ h => h) rfl

@[simp] theorem commit_line (t : Tools) (w : Work) : (commit t w).st.line = w.st.line :=
  congrArg (·.1) (commit_ground t w)

@[simp] theorem commit_overflow (t : Tools) (w : Work) : (commit t w).st.overflow = w.st.overflow :=
  congrArg (·.2.1) (commit_ground t w)

@[simp] theorem commit_page (t : Tools) (w : Work) : (commit t w).st.page = w.st.page :=
  congrArg (·.2.2.1) (commit_ground t w)

@[simp] theorem commit_carry (t : Tools) (w : Work) : (commit t w).st.carry = w.st.carry :=
  congrArg (·.2.2.2.1) (commit_ground t w)

@[simp] theorem commit_reports (t : Tools) (w : Work) : (commit t w).st.reports = w.st.reports :=
  congrArg (·.2.2.2.2.1) (commit_ground t w)

@[simp] theorem commit_queue (t : Tools) (w : Work) : (commit t w).st.queue = w.st.queue :=
  congrArg (·.2.2.2.2.2.1) (commit_ground t w)

@[simp] theorem commit_pagesClosed (t : Tools) (w : Work) : (commit t w).st.counters.closed = w.st.counters.closed :=
  congrArg (·.2.2.2.2.2.2.1) (commit_ground t w)

@[simp] theorem commit_imaged (t : Tools) (w : Work) : (commit t w).st.counters.imaged = w.st.counters.imaged :=
  congrArg (·.2.2.2.2.2.2.2) (commit_ground t w)

/-! ## Recorded strikes -/

@[simp] theorem recordStrikes_ground (bytes : List Byte) (w : Work) : (recordStrikes t bytes w).st.ground = w.st.ground :=
  recordStrikes_keeps (Q := fun x => x.st.ground = w.st.ground) (fun e x h => (x.st.raise_ground t.table e).trans h)
    (fun _ _ h => h) bytes rfl

@[simp] theorem recordStrikes_line (bytes : List Byte) (w : Work) : (recordStrikes t bytes w).st.line = w.st.line :=
  congrArg (·.1) (recordStrikes_ground bytes w)

/-! ## Stops of a tape (R36) -/

/-- A search finds the first line of its range that holds the channel. -/
theorem Tape.findStop_eq_some {x : Tape} {k : Nat} : ∀ {n count m : Nat}, x.findStop k n count = some m ↔
    n ≤ m ∧ m < n + count ∧ x.holdsChannel m k = true ∧ ∀ j, n ≤ j → j < m → x.holdsChannel j k = false
  | n, 0, m => by
    simp only [Tape.findStop, reduceCtorEq, false_iff]
    omega
  | n, count + 1, m => by
    unfold Tape.findStop
    split
    · rename_i h
      simp only [Option.some.injEq]
      constructor
      · rintro rfl
        exact ⟨le_rfl, by omega, h, by omega⟩
      · rintro ⟨h1, -, -, h4⟩
        by_contra hne
        simpa [h] using h4 n le_rfl (by omega)
    · rename_i h
      rw [Tape.findStop_eq_some]
      constructor
      · rintro ⟨h1, h2, h3, h4⟩
        refine ⟨by omega, by omega, h3, fun j hj hm => ?_⟩
        rcases hj.eq_or_lt with rfl | hj
        · simpa using h
        · exact h4 j hj hm
      · rintro ⟨h1, h2, h3, h4⟩
        have : n ≠ m := by
          rintro rfl
          exact h h3
        exact ⟨by omega, by omega, h3, fun j hj hm => h4 j (by omega) hm⟩

/-- A search fails exactly when no line of its range holds the channel. -/
theorem Tape.findStop_eq_none {x : Tape} {k : Nat} : ∀ {n count : Nat}, x.findStop k n count = none ↔
    ∀ j, n ≤ j → j < n + count → x.holdsChannel j k = false
  | n, 0 => by
    simp only [Tape.findStop, true_iff]
    omega
  | n, count + 1 => by
    unfold Tape.findStop
    split
    · rename_i h
      simp only [reduceCtorEq, false_iff, not_forall]
      exact ⟨n, le_rfl, by omega, by simp [h]⟩
    · rename_i h
      rw [Tape.findStop_eq_none]
      constructor
      · intro hn j hj hm
        rcases hj.eq_or_lt with rfl | hj
        · simpa using h
        · exact hn j hj (by omega)
      · intro hn j hj hm
        exact hn j (by omega) (by omega)

/-! ## The motions end on the form -/

/-- The carriage stands on a line of the form. -/
def Work.onForm (t : Tools) (w : Work) : Prop := 1 ≤ w.st.line ∧ w.st.line ≤ t.tape.formLength

@[simp] theorem formEnd_line (t : Tools) (w : Work) : (formEnd t w).st.line = 1 := rfl

theorem spaceStep_line (t : Tools) (w : Work) :
    (spaceStep t w).st.line = if w.st.line < t.tape.formLength then w.st.line + 1 else 1 := by
  unfold spaceStep
  by_cases h : w.st.line < t.tape.formLength
  · simp only [h, if_true]
    split <;> rfl
  · simp only [h, if_false]
    split <;> rfl

theorem onForm_spaceStep (hf : 1 ≤ t.tape.formLength) : (spaceStep t w).onForm t := by
  rw [Work.onForm, spaceStep_line]
  split <;> omega

theorem onForm_spaceSteps (hf : 1 ≤ t.tape.formLength) : ∀ (n : Nat) {w : Work}, w.onForm t → (spaceSteps t n w).onForm t
  | 0, _, hw => hw
  | n + 1, _, _ => onForm_spaceSteps hf n (onForm_spaceStep hf)

theorem onForm_skipTo (hf : 1 ≤ t.tape.formLength) (k : Nat) (w : Work) : (skipTo t k w).onForm t := by
  unfold skipTo
  split
  · rename_i n h
    obtain ⟨h1, h2, -, -⟩ := Tape.findStop_eq_some.mp h
    exact ⟨by simp only; omega, by simp only; omega⟩
  · simp only
    split
    · rename_i n h
      obtain ⟨h1, h2, -, -⟩ := Tape.findStop_eq_some.mp h
      exact ⟨h1, by simp only; omega⟩
    · exact ⟨le_rfl, hf⟩

theorem onForm_carry (hf : 1 ≤ t.tape.formLength) (m : Motion) (hw : w.onForm t) : (carry t m w).onForm t := by
  have hc : (commit t w).onForm t := by simpa [Work.onForm] using hw
  unfold carry
  split
  · split
    · exact onForm_spaceSteps hf _ hc
    · exact onForm_skipTo hf _ _
  · split
    · exact hw
    · simpa [Work.onForm] using hw

/-- A taken line leaves the carriage on the form. -/
theorem lineWork_onForm (hf : 1 ≤ t.tape.formLength) (c : Control) (bytes : Option (List Byte)) {st : Station}
    (h1 : 1 ≤ st.line) (h2 : st.line ≤ t.tape.formLength) : (lineWork t c bytes st).onForm t := by
  have strike : ∀ {w : Work} bs, w.onForm t → (recordStrikes t bs w).onForm t := fun bs hw => by
    simpa [Work.onForm] using hw
  have start : Work.onForm t ⟨st, false, false⟩ := ⟨h1, h2⟩
  unfold lineWork
  cases bytes with
  | none => exact onForm_carry hf _ start
  | some bs =>
    simp only
    split
    · exact strike bs (onForm_carry hf _ start)
    · exact onForm_carry hf _ (strike bs start)

end Sys2Proof.Machine
end

section
/-! SUPPORT. Laws of stations, park slots and library together that every change keeps: the reference counts (R116), the
selections (R105) and the carriage lines (R1, R109). -/

namespace Sys2Proof.Machine

variable {s t : State} {i : StationId} {st : Station} {n : Nat}

/-! ## What a change of a station leaves of its selections and its line -/

/-- No change of a station alone touches its selections. -/
theorem StationChange.sel (h : StationChange s i st) : st.sel = (s.station i).sel := by
  have drain : ∀ x : Station, x.drainTest.sel = x.sel := fun x => by
    rcases x.drainTest_cases with he | ⟨-, -, he⟩ <;> rw [he]
    rfl
  have remove : ∀ (x : Station) h, (x.removeHolds h).sel = x.sel := fun x h => by
    rcases x.removeHolds_cases h with ⟨he, -⟩ | ⟨he, -⟩ <;> rw [he]
    rw [Station.refreshIdle_eq]
  have add : ∀ (x : Station) h, (x.addHolds h).sel = x.sel := fun x h => by
    rcases x.addHolds_cases h with ⟨he, -⟩ | ⟨he, -⟩ <;> rw [he]
  cases h with
  | line c bytes hr hs => exact congrArg (·.1) (lineWork_settings _ c bytes (s.station i))
  | raise e => exact Station.raise_sel ..
  | endJob hr hs =>
    have hw : (endJobWork (s.library.tools (s.station i).sel) (s.station i)).st.sel = (s.station i).sel :=
      congrArg (·.1) (endJobWork_settings _ (s.station i))
    rcases Station.finishJob_cases (endJobWork (s.library.tools (s.station i).sel) (s.station i)).st with
      ⟨-, he⟩ | ⟨-, -, he⟩ | ⟨-, -, he⟩ <;> rw [he] <;> exact hw
  | hold => exact add _ _
  | release => exact remove { s.station i with record := _ } _
  | panel on =>
    cases on with
    | true => exact add _ _
    | false => exact remove _ _
  | reset on => rw [Station.reset_eq]
  | imaged hq => exact drain _
  | refused hq => exact (drain _).trans (Station.raise_sel ..)
  | _ => rfl

/-- A change of a station alone leaves the carriage where it is, takes it to line 1, or moves it by a taken line. -/
theorem StationChange.line_cases (h : StationChange s i st) : st.line = (s.station i).line ∨ st.line = 1 ∨
    (s.station i).state = .ready ∧ 
      ∃ c bytes, st.line = (lineWork (s.library.tools (s.station i).sel) c bytes (s.station i)).st.line := by
  have drain : ∀ x : Station, x.drainTest.line = x.line := fun x => by
    rcases x.drainTest_cases with he | ⟨-, -, he⟩ <;> rw [he]
    rfl
  have remove : ∀ (x : Station) h, (x.removeHolds h).line = x.line := fun x h => by
    rcases x.removeHolds_cases h with ⟨he, -⟩ | ⟨he, -⟩ <;> rw [he]
    rw [Station.refreshIdle_eq]
  have add : ∀ (x : Station) h, (x.addHolds h).line = x.line := fun x h => by
    rcases x.addHolds_cases h with ⟨he, -⟩ | ⟨he, -⟩ <;> rw [he]
  cases h with
  | line c bytes hr hs => exact .inr (.inr ⟨hr, c, bytes, rfl⟩)
  | raise e => exact .inl (Station.raise_line ..)
  | endJob hr hs =>
    right; left
    rcases Station.finishJob_cases (endJobWork (s.library.tools (s.station i).sel) (s.station i)).st with
      ⟨-, he⟩ | ⟨-, -, he⟩ | ⟨-, -, he⟩ <;> rw [he]
    rfl
  | hold => exact .inl (add _ _)
  | release => exact .inl (remove { s.station i with record := _ } _)
  | panel on =>
    cases on with
    | true => exact .inl (add _ _)
    | false => exact .inl (remove _ _)
  | reset on => exact .inr (.inl (by rw [Station.reset_eq]))
  | imaged hq => exact .inl (drain _)
  | refused hq => exact .inl ((drain _).trans (Station.raise_line ..))
  | _ => exact .inl rfl

/-- The station runs: it has drum, tape and layout selected (R7, R14). -/
def Station.runs (st : Station) : Prop := st.state = .ready ∨ st.state = .held ∨ st.state = .draining

theorem Station.selectionsComplete_iff (st : Station) : st.selectionsComplete = true ↔ (st.runs → st.sel.complete = true) := by
  cases h : st.state <;> simp [Station.selectionsComplete, Station.runs, h]

theorem Station.raise_runs {table : Dispositions} {e : CondEntry} (h : (st.raise table e).runs) : st.runs := by
  rcases st.raise_cases table e with ⟨h1, -⟩ | ⟨h0, -⟩ | ⟨-, -, h1, -⟩ | ⟨-, h1, -⟩
  · rwa [Station.runs, h1] at h
  · exact .inl h0
  · rwa [Station.runs, h1] at h
  · simp [Station.runs, h1] at h

theorem Station.drainTest_runs (h : st.drainTest.runs) : st.runs := by
  rcases st.drainTest_cases with he | ⟨hs, -⟩
  · rwa [he] at h
  · exact .inr (.inr hs)

theorem Station.addHolds_runs {x : Holds} (h : (st.addHolds x).runs) : st.runs := by
  rcases st.addHolds_cases x with ⟨-, hs⟩ | ⟨he, -⟩
  · exact .inl hs
  · rwa [he] at h

theorem Station.removeHolds_runs {x : Holds} (h : (st.removeHolds x).runs) : st.runs := by
  rcases st.removeHolds_cases x with ⟨-, hs, -⟩ | ⟨he, -⟩
  · exact .inr (.inl hs)
  · rwa [he] at h

/-- A station that runs after a change of its own ran before it, or STATION RESET found its selections complete. -/
theorem StationChange.runs (hc : StationChange s i st) (h : st.runs) :
    (s.station i).runs ∨ (s.station i).sel.complete = true := by
  cases hc with
  | line c bytes hr hs => exact .inl (.inl hr)
  | raise e => exact .inl (Station.raise_runs h)
  | endJob hr hs => exact .inl (.inl hr)
  | hold => exact .inl (Station.addHolds_runs h)
  | release => exact .inl (Station.removeHolds_runs
      (st := { s.station i with record := { (s.station i).record with first := none } }) h)
  | panel on =>
    cases on with
    | true => exact .inl (Station.addHolds_runs h)
    | false => exact .inl (Station.removeHolds_runs h)
  | stop hu => simp [Station.runs, Station.stopWith] at h
  | reset on =>
    right
    by_contra hn
    rw [Station.reset_eq] at h
    simp [Station.runs, hn] at h
  | imaged hq => exact .inl (Station.drainTest_runs (st := (((s.station i).freeHead.countImaged).addReport _)) h)
  | refused hq =>
    exact .inl (Station.raise_runs (st := ((s.station i).freeHead.addReport _)) (Station.drainTest_runs h))
  | _ => exact .inl h

theorem StationChange.selectionsComplete (hc : StationChange s i st) (h : (s.station i).selectionsComplete = true) :
    st.selectionsComplete = true := by
  rw [Station.selectionsComplete_iff] at h ⊢
  intro hr
  rw [hc.sel]
  exact (hc.runs hr).elim h id

/-! ## The reference counts (R116) -/

/-- A selection's part in the count of entry `e`. -/
def named (o : Option (Fin n)) (e : Fin n) : Nat := if o = some e then 1 else 0

@[simp] theorem named_none (e : Fin n) : named none e = 0 := rfl

theorem named_le (o : Option (Fin n)) (e : Fin n) : named o e ≤ 1 := by
  unfold named
  split <;> omega

theorem named_eq_one {o : Option (Fin n)} {e : Fin n} : named o e = 1 ↔ o = some e := by
  unfold named
  split <;> simp_all

theorem ite_beq_eq_named (o : Option (Fin n)) (e : Fin n) :
    (if (o == some e) = true then 1 else 0) = named o e := by
  simp only [named, beq_iff_eq]

theorem dropRef_named (v : Vector Nat n) (o : Option (Fin n)) (e : Fin n) : (dropRef v o)[e] = v[e] - named o e :=
  dropRef_get v o e

theorem moveRef_named (v : Vector Nat n) {o o' : Option (Fin n)} (h : o ≠ o') (e : Fin n) :
    (moveRef v o o')[e] = v[e] - named o e + named o' e := by
  rw [moveRef_get, if_neg h]
  rfl

/-- The number of stations and park slots whose selection `pick` names entry `e`. -/
def State.holdersOf (s : State) (pick : Selections → Option (Fin n)) (e : Fin n) : Nat :=
  s.holders fun x => pick x == some e

/-- The counts `v` are those of the holders of each entry. -/
def State.counts (s : State) (pick : Selections → Option (Fin n)) (v : Vector Nat n) : Prop :=
  ∀ e : Fin n, v[e] = s.holdersOf pick e

theorem State.refsAgree_iff (s : State) : s.refsAgree = true ↔
    s.counts Selections.drum s.library.refs.drum ∧ s.counts Selections.tape s.library.refs.tape ∧
    s.counts Selections.layout s.library.refs.layout ∧ s.counts Selections.coll s.library.refs.coll := by
  simp only [State.refsAgree, State.counts, State.holdersOf, Bool.and_eq_true, List.all_eq_true, List.mem_finRange,
    true_implies, beq_iff_eq, forall_and, and_assoc]

/-- Writing one place of a table changes a count by what stood there and what stands there now. -/
theorem countP_set_add {α : Type} {m : Nat} (p : α → Bool) (v : Vector α m) (k : Fin m) (x : α) :
    (v.set k x).toList.countP p + (if p v[k] = true then 1 else 0) = v.toList.countP p + (if p x = true then 1 else 0) := by
  have pos : p v[k] = true → 0 < v.countP p := fun h => Vector.countP_pos_iff.mpr ⟨v[k], by simp, h⟩
  rw [Vector.countP_toList, Vector.countP_toList, Vector.countP_set]
  simp only [Fin.getElem_fin] at pos ⊢
  by_cases hk : p v[k.val] = true
  · have := pos hk
    rw [if_pos hk]
    omega
  · rw [if_neg hk]
    omega

section
variable {pick : Selections → Option (Fin n)} {v : Vector Nat n} {e : Fin n}

/-- The entry a park slot's record names. -/
def parkPick (pick : Selections → Option (Fin n)) (p : Option ParkRecord) : Option (Fin n) := p.bind fun r => pick r.sel

theorem State.holdersOf_setStation (st : Station) :
    (s.setStation i st).holdersOf pick e + named (pick (s.station i).sel) e =
      s.holdersOf pick e + named (pick st.sel) e := by
  have := countP_set_add (fun x : Station => pick x.sel == some e) s.stations i st
  simp only [ite_beq_eq_named] at this
  simp only [State.holdersOf, State.holders, State.setStation, State.station] at this ⊢
  omega

theorem State.holdersOf_setPark (k : Fin 4) (p : Option ParkRecord) :
    State.holdersOf { s with parks := s.parks.set k p } pick e + named (parkPick pick s.parks[k]) e =
      s.holdersOf pick e + named (parkPick pick p) e := by
  have hp : ∀ q : Option ParkRecord,
      (if (q.any fun r => pick r.sel == some e) = true then 1 else 0) = named (parkPick pick q) e := fun q => by
    cases q with
    | none => rfl
    | some r => exact ite_beq_eq_named _ _
  have := countP_set_add (fun q : Option ParkRecord => q.any fun r => pick r.sel == some e) s.parks k p
  simp only [hp] at this
  simp only [State.holdersOf, State.holders] at this ⊢
  omega

/-- A station and a park slot written together. -/
theorem State.holdersOf_setBoth (st : Station) (k : Fin 4) (p : Option ParkRecord) :
    State.holdersOf { s.setStation i st with parks := s.parks.set k p } pick e +
        named (pick (s.station i).sel) e + named (parkPick pick s.parks[k]) e =
      s.holdersOf pick e + named (pick st.sel) e + named (parkPick pick p) e := by
  have h1 := s.holdersOf_setStation (pick := pick) (e := e) (i := i) st
  have h2 := (s.setStation i st).holdersOf_setPark (pick := pick) (e := e) k p
  simp only [State.setStation_parks] at h2
  change State.holdersOf { s.setStation i st with parks := s.parks.set k p } pick e + _ = _ at h2
  omega

theorem State.counts_congr (hs : t.stations = s.stations) (hp : t.parks = s.parks) (h : s.counts pick v) :
    t.counts pick v := by
  intro e
  rw [h e, State.holdersOf, State.holdersOf, State.holders, State.holders, hs, hp]

theorem State.counts_setStation (hsel : st.sel = (s.station i).sel) (h : s.counts pick v) :
    (s.setStation i st).counts pick v := by
  intro e
  have hs := s.holdersOf_setStation (pick := pick) (e := e) (i := i) st
  rw [hsel, Nat.add_right_cancel_iff] at hs
  rw [hs, h e]

/-- A changed selection moves its reference (R116). -/
theorem State.counts_move (h : s.counts pick v) :
    (s.setStation i st).counts pick (moveRef v (pick (s.station i).sel) (pick st.sel)) := by
  intro e
  have hs := s.holdersOf_setStation (pick := pick) (e := e) (i := i) st
  have he := h e
  by_cases h1 : pick (s.station i).sel = pick st.sel
  · rw [moveRef, if_pos h1]
    rw [h1] at hs
    omega
  · rw [moveRef_named v h1]
    have ho := named_le (pick (s.station i).sel) e
    have hn := named_le (pick st.sel) e
    have both : ¬ (named (pick (s.station i).sel) e = 1 ∧ named (pick st.sel) e = 1) := fun ⟨ha, hb⟩ =>
      h1 ((named_eq_one.mp ha).trans (named_eq_one.mp hb).symm)
    omega

/-- A parked record takes the station's references over (R16). -/
theorem State.counts_park {k : Fin 4} {r : ParkRecord} (hk : s.parks[k] = none) (hr : r.sel = (s.station i).sel)
    (hn : pick st.sel = none) (h : s.counts pick v) :
    State.counts { s.setStation i st with parks := s.parks.set k (some r) } pick v := by
  intro e
  have hs := s.holdersOf_setBoth (pick := pick) (e := e) (i := i) st k (some r)
  have h0 : parkPick pick (none : Option ParkRecord) = none := rfl
  have h1 : parkPick pick (some r) = pick (s.station i).sel := congrArg pick hr
  rw [hn, hk, h0, h1, named_none] at hs
  rw [h e]
  omega

/-- A resumed record gives its references to the station, which gives up its own (R17). -/
theorem State.counts_resume {k : Fin 4} {r : ParkRecord} (hk : s.parks[k] = some r) (hr : st.sel = r.sel)
    (h : s.counts pick v) :
    State.counts { s.setStation i st with parks := s.parks.set k none } pick (dropRef v (pick (s.station i).sel)) := by
  intro e
  have hs := s.holdersOf_setBoth (pick := pick) (e := e) (i := i) st k none
  have h0 : parkPick pick (none : Option ParkRecord) = none := rfl
  have h1 : parkPick pick (some r) = pick st.sel := congrArg pick hr.symm
  rw [hk, h0, h1, named_none] at hs
  rw [dropRef_named, h e]
  omega

/-- A park slot that DEVICE CLEAR empties releases its references (R27). -/
theorem State.counts_emptyPark {k : Fin 4} (h : s.counts pick v) :
    State.counts { s with parks := s.parks.set k none } pick (dropRef v (parkPick pick s.parks[k])) := by
  intro e
  have hs := s.holdersOf_setPark (pick := pick) (e := e) k none
  have h0 : parkPick pick (none : Option ParkRecord) = none := rfl
  rw [h0, named_none] at hs
  rw [dropRef_named, h e]
  omega

/-- The selections of the stations and of the park slots' records. -/
def State.selects (s : State) (sel : Selections) : Prop :=
  (∃ i, sel = (s.station i).sel) ∨ ∃ (k : Fin 4) (r : ParkRecord), s.parks[k] = some r ∧ sel = r.sel

/-- An entry without references is selected nowhere. -/
theorem State.counts_zero (h : s.counts pick v) (he : v[e] = 0) {sel : Selections} (hsel : s.selects sel) :
    pick sel ≠ some e := by
  have h0 : s.holders (fun x => pick x == some e) = 0 := (h e).symm.trans he
  simp only [State.holders, Nat.add_eq_zero_iff, List.countP_eq_zero, Vector.mem_toList_iff] at h0
  obtain ⟨hs, hp⟩ := h0
  intro hn
  rcases hsel with ⟨i, rfl⟩ | ⟨k, r, hk, rfl⟩
  · exact hs (s.station i) (by simp [State.station]) (by simp [hn])
  · exact hp s.parks[k] (by simp) (by simp [hk, hn])

end

theorem Station.select_sel (new : Selections) (st : Station) : (st.select new).sel = new := by
  unfold Station.select
  simp only
  split <;> rfl

theorem RefCounts.releasePark_eq (r : RefCounts) (p : Option ParkRecord) : r.releasePark p =
    ⟨dropRef r.drum (parkPick Selections.drum p), dropRef r.tape (parkPick Selections.tape p),
      dropRef r.layout (parkPick Selections.layout p), dropRef r.coll (parkPick Selections.coll p)⟩ := by
  cases p <;> rfl

theorem Change.refsAgree (h : Change s t) (hs : s.refsAgree = true) : t.refsAgree = true := by
  rw [State.refsAgree_iff] at hs ⊢
  obtain ⟨hd, ht, hl, hc⟩ := hs
  cases h with
  | rest h =>
    rw [h.library]
    exact ⟨State.counts_congr h.stations h.parks hd, State.counts_congr h.stations h.parks ht,
      State.counts_congr h.stations h.parks hl, State.counts_congr h.stations h.parks hc⟩
  | station h =>
    exact ⟨State.counts_setStation h.sel hd, State.counts_setStation h.sel ht, State.counts_setStation h.sel hl,
      State.counts_setStation h.sel hc⟩
  | select i d t' l c _ _ _ _ _ =>
    have hsel := Station.select_sel ((s.station i).sel.choose d t' l c) (s.station i)
    generalize (s.station i).select ((s.station i).sel.choose d t' l c) = st at hsel ⊢
    rw [← hsel]
    exact ⟨State.counts_move hd, State.counts_move ht, State.counts_move hl, State.counts_move hc⟩
  | park i k hr hb hk =>
    exact ⟨State.counts_park hk rfl rfl hd, State.counts_park hk rfl rfl ht, State.counts_park hk rfl rfl hl,
      State.counts_park hk rfl rfl hc⟩
  | resume i k r line _ _ hk _ =>
    exact ⟨State.counts_resume hk rfl hd, State.counts_resume hk rfl ht, State.counts_resume hk rfl hl,
      State.counts_resume hk rfl hc⟩
  | emptyPark k =>
    simp only [RefCounts.releasePark_eq]
    exact ⟨State.counts_emptyPark hd, State.counts_emptyPark ht, State.counts_emptyPark hl, State.counts_emptyPark hc⟩
  | powerOn =>
    have hr : State.reset.refsAgree = true := by decide +kernel
    exact (State.refsAgree_iff _).mp hr
  | _ => exact ⟨hd, ht, hl, hc⟩

/-! ## The selections (R105) -/

/-- A kind of table holds what a selection of it names. -/
def holdsEntry {α : Type} (v : Vector (Option α) n) (o : Option (Fin n)) : Prop := ∀ e, o = some e → v[e].isSome = true

theorem Library.holdsSelections_iff (lib : Library) (sel : Selections) : lib.holdsSelections sel = true ↔
    holdsEntry lib.drums sel.drum ∧ holdsEntry lib.tapes sel.tape ∧ holdsEntry lib.layouts sel.layout ∧
    holdsEntry lib.colls sel.coll := by
  have h : ∀ {α : Type} {m : Nat} (v : Vector (Option α) m) (o : Option (Fin m)),
      (o.all fun e => v[e].isSome) = true ↔ holdsEntry v o := fun v o => by
    cases o <;> simp [holdsEntry]
  simp only [Library.holdsSelections, Bool.and_eq_true, h, and_assoc]

section
variable {α : Type} {v : Vector (Option α) n} {o : Option (Fin n)}

/-- A load makes an entry VALID and leaves the others. -/
theorem holdsEntry_set (k : Fin n) (x : α) (h : holdsEntry v o) : holdsEntry (v.set k (some x)) o := by
  intro e he
  have := h e he
  simp only [Fin.getElem_fin, Vector.getElem_set] at this ⊢
  split
  · rfl
  · exact this

/-- An entry that is cleared is missed by the selections that do not name it. -/
theorem holdsEntry_clear {k : Fin n} (hk : o ≠ some k) (h : holdsEntry v o) : holdsEntry (v.set k none) o := by
  intro e he
  have hne : k.val ≠ e.val := fun hke => hk (he.trans (congrArg some (Fin.ext hke.symm)))
  have := h e he
  simpa only [Fin.getElem_fin, Vector.getElem_set, if_neg hne] using this

/-- A SELECT field that names no EMPTY entry leaves a VALID selection. -/
theorem holdsEntry_choice {c : Choice n} (hc : namesEmpty v c = false) (h : holdsEntry v o) :
    holdsEntry v (c.apply o) := by
  cases c with
  | keep => exact h
  | use x =>
    intro e he
    have hx : x = some e := he
    subst hx
    cases hv : v[e] with
    | none => simp [namesEmpty, hv] at hc
    | some y => rfl

end

theorem Selections.complete_iff (sel : Selections) :
    sel.complete = true ↔ sel.drum.isSome = true ∧ sel.tape.isSome = true ∧ sel.layout.isSome = true := by
  simp [Selections.complete, and_assoc]

/-- SELECT never empties a drum, tape or layout selection (R7). -/
theorem Selections.choose_complete {sel : Selections} {d t l : Choice 8} {c : Choice 4}
    (hf : d ≠ .use .none ∧ t ≠ .use .none ∧ l ≠ .use .none) (h : sel.complete = true) :
    (sel.choose d t l c).complete = true := by
  have keep : ∀ (x : Choice 8) (o : Option (Fin 8)), x ≠ .use .none → o.isSome = true → (x.apply o).isSome = true := by
    intro x o hx ho
    cases x with
    | keep => exact ho
    | use e =>
      cases e with
      | none => exact absurd rfl hx
      | some e => rfl
  rw [Selections.complete_iff] at h ⊢
  exact ⟨keep _ _ hf.1 h.1, keep _ _ hf.2.1 h.2.1, keep _ _ hf.2.2 h.2.2⟩

/-- The selections of stations and park slots name VALID entries, and those that run or are parked are complete. -/
structure State.Valid (s : State) : Prop where
  station : ∀ i, s.library.holdsSelections (s.station i).sel = true
  complete : ∀ i, (s.station i).selectionsComplete = true
  park : ∀ (k : Fin 4) r, s.parks[k] = some r → s.library.holdsSelections r.sel = true ∧ r.sel.complete = true

theorem forall_parks_iff {P : ParkRecord → Bool} (v : Vector (Option ParkRecord) 4) :
    (v.toList.all fun p => p.all P) = true ↔ ∀ (k : Fin 4) r, v[k] = some r → P r = true := by
  simp only [List.all_eq_true, Vector.mem_toList_iff, Option.all_eq_true]
  constructor
  · intro h k r hk
    exact h v[k] (by simp) r hk
  · intro h p hp r hr
    obtain ⟨k, hk, rfl⟩ := Vector.mem_iff_getElem.mp hp
    exact h ⟨k, hk⟩ r hr

theorem State.selectionsValid_iff (s : State) : s.selectionsValid = true ↔ s.Valid := by
  simp only [State.selectionsValid, Bool.and_eq_true, State.allStations_iff, forall_parks_iff]
  constructor
  · rintro ⟨hs, hp⟩
    exact ⟨fun i => (hs i).1, fun i => (hs i).2, hp⟩
  · rintro ⟨h1, h2, h3⟩
    exact ⟨fun i => ⟨h1 i, h2 i⟩, h3⟩

/-- Park slots after one of them is written. -/
theorem forall_parks_set {P : ParkRecord → Prop} {v : Vector (Option ParkRecord) 4} (k : Fin 4) {p : Option ParkRecord}
    (hv : ∀ (k : Fin 4) r, v[k] = some r → P r) (hp : ∀ r, p = some r → P r) :
    ∀ (j : Fin 4) r, (v.set k p)[j] = some r → P r := by
  intro j r hj
  simp only [Fin.getElem_fin, Vector.getElem_set] at hj
  split at hj
  · exact hp r hj
  · exact hv j r hj

/-- A new library in which the same selections are VALID. -/
theorem State.Valid.library {lib : Library} (h : s.Valid)
    (hl : ∀ sel, s.selects sel → s.library.holdsSelections sel = true → lib.holdsSelections sel = true) :
    State.Valid { s with library := lib } where
  station i := hl _ (.inl ⟨i, rfl⟩) (h.station i)
  complete := h.complete
  park k r hk := ⟨hl _ (.inr ⟨k, r, hk, rfl⟩) (h.park k r hk).1, (h.park k r hk).2⟩

theorem State.Valid.setStation (h : s.Valid) (hs : s.library.holdsSelections st.sel = true)
    (hc : st.selectionsComplete = true) : (s.setStation i st).Valid where
  station := State.forall_setStation (P := fun x => s.library.holdsSelections x.sel = true) h.station hs
  complete := State.forall_setStation (P := fun x => x.selectionsComplete = true) h.complete hc
  park := h.park

theorem Change.valid (h : Change s t) (hr : s.refsAgree = true) (hs : s.Valid) : t.Valid := by
  rw [State.refsAgree_iff] at hr
  obtain ⟨rd, rt, rl, rc⟩ := hr
  cases h with
  | rest h =>
    refine ⟨fun i => ?_, fun i => ?_, ?_⟩
    · rw [State.station_congr h.stations, h.library]
      exact hs.station i
    · rw [State.station_congr h.stations]
      exact hs.complete i
    · rw [h.parks, h.library]
      exact hs.park
  | @station i st h =>
    refine hs.setStation ?_ (h.selectionsComplete (hs.complete i))
    rw [h.sel]
    exact hs.station i
  | select i d t' l c _ _ he _ hf =>
    have hv : s.library.holdsSelections ((s.station i).sel.choose d t' l c) = true := by
      have := hs.station i
      simp only [Bool.or_eq_false_iff] at he
      obtain ⟨⟨⟨ed, et⟩, el⟩, ec⟩ := he
      rw [Library.holdsSelections_iff] at this ⊢
      obtain ⟨vd, vt, vl, vc⟩ := this
      exact ⟨holdsEntry_choice ed vd, holdsEntry_choice et vt, holdsEntry_choice el vl, holdsEntry_choice ec vc⟩
    have hc : ((s.station i).select ((s.station i).sel.choose d t' l c)).selectionsComplete = true := by
      have := hs.complete i
      rw [Station.selectionsComplete_iff] at this ⊢
      rw [Station.select_sel]
      intro hruns
      by_cases hu : (s.station i).state = .unloaded ∧ ((s.station i).sel.choose d t' l c).complete = true
      · exact hu.2
      · simp only [Station.select, if_neg hu] at hruns
        exact Selections.choose_complete hf (this hruns)
    have := hs.setStation (i := i) (st := (s.station i).select _) (by rwa [Station.select_sel]) hc
    exact ⟨this.station, this.complete, this.park⟩
  | park i k hr hb hk =>
    have hu : (s.station i).parked.selectionsComplete = true := by
      simp [Station.selectionsComplete_iff, Station.runs, Station.parked]
    have := hs.setStation (i := i) (st := (s.station i).parked) rfl hu
    refine ⟨this.station, this.complete, forall_parks_set k hs.park fun r hr' => ?_⟩
    cases hr'
    exact ⟨hs.station i, (Station.selectionsComplete_iff _).mp (hs.complete i) (.inl hr)⟩
  | resume i k r line _ _ hk _ =>
    obtain ⟨hv, hc⟩ := hs.park k r hk
    have := hs.setStation (i := i) (st := (s.station i).resumed r line) hv
      ((Station.selectionsComplete_iff _).mpr fun _ => hc)
    exact ⟨this.station, this.complete, forall_parks_set k hs.park fun _ h => by cases h⟩
  | emptyPark k => exact ⟨hs.station, hs.complete, forall_parks_set k hs.park fun _ h => by cases h⟩
  | loadDrum e d _ =>
    refine hs.library fun sel _ hv => ?_
    rw [Library.holdsSelections_iff] at hv ⊢
    exact ⟨holdsEntry_set e d hv.1, hv.2⟩
  | loadTape e x _ _ =>
    refine hs.library fun sel _ hv => ?_
    rw [Library.holdsSelections_iff] at hv ⊢
    exact ⟨hv.1, holdsEntry_set e x hv.2.1, hv.2.2⟩
  | loadLayout e l _ _ =>
    refine hs.library fun sel _ hv => ?_
    rw [Library.holdsSelections_iff] at hv ⊢
    exact ⟨hv.1, hv.2.1, holdsEntry_set e l hv.2.2.1, hv.2.2.2⟩
  | loadColl e c _ =>
    refine hs.library fun sel _ hv => ?_
    rw [Library.holdsSelections_iff] at hv ⊢
    exact ⟨hv.1, hv.2.1, hv.2.2.1, holdsEntry_set e c hv.2.2.2⟩
  | loadConditions d => exact hs.library fun _ _ h => h
  | clearDrum e he =>
    refine hs.library fun sel hsel hv => ?_
    have hn : sel.drum ≠ some e := State.counts_zero rd he hsel
    rw [Library.holdsSelections_iff] at hv ⊢
    exact ⟨holdsEntry_clear hn hv.1, hv.2⟩
  | clearTape e he =>
    refine hs.library fun sel hsel hv => ?_
    have hn : sel.tape ≠ some e := State.counts_zero rt he hsel
    rw [Library.holdsSelections_iff] at hv ⊢
    exact ⟨hv.1, holdsEntry_clear hn hv.2.1, hv.2.2⟩
  | clearLayout e he =>
    refine hs.library fun sel hsel hv => ?_
    have hn : sel.layout ≠ some e := State.counts_zero rl he hsel
    rw [Library.holdsSelections_iff] at hv ⊢
    exact ⟨hv.1, hv.2.1, holdsEntry_clear hn hv.2.2.1, hv.2.2.2⟩
  | clearColl e he =>
    refine hs.library fun sel hsel hv => ?_
    have hn : sel.coll ≠ some e := State.counts_zero rc he hsel
    rw [Library.holdsSelections_iff] at hv ⊢
    exact ⟨hv.1, hv.2.1, hv.2.2.1, holdsEntry_clear hn hv.2.2.2⟩
  | powerOn =>
    have hr : State.reset.selectionsValid = true := by decide +kernel
    obtain ⟨h1, h2, h3⟩ := (State.selectionsValid_iff _).mp hr
    exact ⟨h1, h2, h3⟩

/-! ## The carriage lines (R1, R109) -/

/-- Line `n` lies on the form of the selected tape, and is 1 with no tape selected. -/
def Library.onForm (lib : Library) (o : Option (Fin 8)) (n : Nat) : Prop :=
  1 ≤ n ∧ (o = none → n = 1) ∧ ∀ e, o = some e → ∃ x, lib.tapes[e] = some x ∧ n ≤ x.formLength

theorem Library.lineInForm_iff (lib : Library) (st : Station) :
    lib.lineInForm st = true ↔ lib.onForm st.sel.tape st.line := by
  cases h : st.sel.tape with
  | none => simp [Library.lineInForm, Library.onForm, h]
  | some e => simp [Library.lineInForm, Library.onForm, h, Option.any_eq_true]

/-- VALID tapes are well formed, carriage lines lie on their forms, parked lines are at least 1. -/
structure State.Lines (s : State) : Prop where
  tape : ∀ (e : Fin 8) x, s.library.tapes[e] = some x → x.wellFormed = true
  station : ∀ i, s.library.onForm (s.station i).sel.tape (s.station i).line
  park : ∀ (k : Fin 4) r, s.parks[k] = some r → 1 ≤ r.line

theorem State.linesInForms_iff (s : State) : s.linesInForms = true ↔ s.Lines := by
  have tapes : (s.library.tapes.toList.all fun t => t.all Tape.wellFormed) = true ↔
      ∀ (e : Fin 8) x, s.library.tapes[e] = some x → x.wellFormed = true := by
    simp only [List.all_eq_true, Vector.mem_toList_iff, Option.all_eq_true]
    constructor
    · intro h e x he
      exact h s.library.tapes[e] (by simp) x he
    · intro h o ho x hx
      obtain ⟨e, he, rfl⟩ := Vector.mem_iff_getElem.mp ho
      exact h ⟨e, he⟩ x hx
  simp only [State.linesInForms, Bool.and_eq_true, State.allStations_iff, forall_parks_iff (P := fun r => decide (1 ≤ r.line)),
    decide_eq_true_eq, tapes, Library.lineInForm_iff]
  constructor
  · rintro ⟨⟨h1, h2⟩, h3⟩
    exact ⟨h1, h2, h3⟩
  · rintro ⟨h1, h2, h3⟩
    exact ⟨⟨h1, h2⟩, h3⟩

theorem Tape.two_le_formLength {x : Tape} (h : x.wellFormed = true) : 2 ≤ x.formLength := by
  simp only [Tape.wellFormed, Bool.and_eq_true, decide_eq_true_eq] at h
  exact h.1.1.1.1

section
variable {lib : Library} {o : Option (Fin 8)}

/-- Line 1 lies on the form of every VALID tape. -/
theorem Library.onForm_one (ht : ∀ (e : Fin 8) x, lib.tapes[e] = some x → x.wellFormed = true)
    (hv : holdsEntry lib.tapes o) : lib.onForm o 1 := by
  refine ⟨le_rfl, fun _ => rfl, fun e he => ?_⟩
  obtain ⟨x, hx⟩ := Option.isSome_iff_exists.mp (hv e he)
  have := Tape.two_le_formLength (ht e x hx)
  exact ⟨x, hx, by omega⟩

/-- A selection that names a VALID tape reads that tape. -/
theorem Library.tapeOf_eq {sel : Selections} {e : Fin 8} {x : Tape} (he : sel.tape = some e) (hx : lib.tapes[e] = some x) :
    lib.tapeOf sel = x := by
  have hx' : (lib.tapes[e]?) = some (some x) := by simpa using hx
  simp only [Library.tapeOf, he, Option.bind_some]
  rw [hx]
  rfl

end

/-- Lines 1 to F of a VALID tape lie on the form. -/
theorem Library.onForm_tapeOf {lib : Library} {sel : Selections} {m : Nat} (hv : holdsEntry lib.tapes sel.tape)
    (hc : sel.complete = true) (h1 : 1 ≤ m) (hm : m ≤ (lib.tapeOf sel).formLength) : lib.onForm sel.tape m := by
  refine ⟨h1, fun hn => ?_, fun e he => ?_⟩
  · simp [Selections.complete, hn] at hc
  · obtain ⟨x, hx⟩ := Option.isSome_iff_exists.mp (hv e he)
    exact ⟨x, hx, by rwa [Library.tapeOf_eq he hx] at hm⟩

theorem State.anyStation_eq_false {f : Station → Bool} (h : s.anyStation f = false) (i : StationId) :
    f (s.station i) = false := by
  simp only [State.anyStation, Bool.or_eq_false_iff] at h
  obtain ⟨⟨⟨h0, h1⟩, h2⟩, h3⟩ := h
  fin_cases i
  · exact h0
  · exact h1
  · exact h2
  · exact h3

/-- Where a change of a station alone leaves the carriage. -/
theorem StationChange.onForm (h : StationChange s i st) (hv : s.Valid) (hl : s.Lines) :
    s.library.onForm st.sel.tape st.line := by
  have valid : holdsEntry s.library.tapes (s.station i).sel.tape :=
    ((Library.holdsSelections_iff _ _).mp (hv.station i)).2.1
  rw [h.sel]
  rcases h.line_cases with he | he | ⟨hr, c, bytes, he⟩ <;> rw [he]
  · exact hl.station i
  · exact Library.onForm_one hl.tape valid
  · have hc := (Station.selectionsComplete_iff _).mp (hv.complete i) (.inl hr)
    obtain ⟨e, htape⟩ := Option.isSome_iff_exists.mp ((Selections.complete_iff _).mp hc).2.1
    obtain ⟨h1, -, hf⟩ := hl.station i
    obtain ⟨x, hx, hn⟩ := hf e htape
    have htools : (s.library.tools (s.station i).sel).tape = x := Library.tapeOf_eq htape hx
    have hF := Tape.two_le_formLength (hl.tape e x hx)
    obtain ⟨g1, g2⟩ := lineWork_onForm (t := s.library.tools (s.station i).sel) (by rw [htools]; omega) c bytes h1
      (by rwa [htools])
    exact Library.onForm_tapeOf valid hc g1 g2

/-- A new set of tapes on which the selected ones stay, or whose readers stand on line 1. -/
theorem State.Lines.tapes {v : Vector (Option Tape) 8} (h : s.Lines)
    (ht : ∀ (e : Fin 8) x, v[e] = some x → x.wellFormed = true)
    (hs : ∀ i e, (s.station i).sel.tape = some e →
      v[e] = s.library.tapes[e] ∨ (s.station i).line = 1 ∧ v[e].isSome = true) :
    State.Lines { s with library := { s.library with tapes := v } } where
  tape := ht
  park := h.park
  station i := by
    obtain ⟨h1, hn, hf⟩ := h.station i
    refine ⟨h1, hn, fun e he => ?_⟩
    rcases hs i e he with hv | ⟨hline, hv⟩
    · obtain ⟨x, hx, hle⟩ := hf e he
      exact ⟨x, hv.trans hx, hle⟩
    · obtain ⟨x, hx⟩ := Option.isSome_iff_exists.mp hv
      have := Tape.two_le_formLength (ht e x hx)
      exact ⟨x, hx, hline.trans_le (by omega)⟩

theorem State.Lines.setStation (h : s.Lines) (hs : s.library.onForm st.sel.tape st.line) : (s.setStation i st).Lines where
  tape := h.tape
  park := h.park
  station := State.forall_setStation (P := fun x => s.library.onForm x.sel.tape x.line) h.station hs

theorem Change.lines (h : Change s t) (hr : s.refsAgree = true) (hv : s.Valid) (hl : s.Lines) : t.Lines := by
  obtain ⟨-, rt, -, -⟩ := (State.refsAgree_iff s).mp hr
  have valid : ∀ i, holdsEntry s.library.tapes (s.station i).sel.tape := fun i =>
    ((Library.holdsSelections_iff _ _).mp (hv.station i)).2.1
  cases h with
  | rest h =>
    refine ⟨?_, fun i => ?_, ?_⟩
    · rw [h.library]
      exact hl.tape
    · rw [State.station_congr h.stations, h.library]
      exact hl.station i
    · rw [h.parks]
      exact hl.park
  | station h => exact hl.setStation (h.onForm hv hl)
  | select i d t' l c _ _ he htop _ =>
    have hline : ((s.station i).select ((s.station i).sel.choose d t' l c)).line = (s.station i).line := by
      unfold Station.select
      simp only
      split <;> rfl
    have htape : s.library.onForm ((s.station i).sel.choose d t' l c).tape (s.station i).line := by
      by_cases hn : ((s.station i).sel.choose d t' l c).tape = (s.station i).sel.tape
      · rw [hn]
        exact hl.station i
      · rw [htop hn]
        simp only [Bool.or_eq_false_iff] at he
        exact Library.onForm_one hl.tape (holdsEntry_choice he.1.1.2 (valid i))
    have := hl.setStation (i := i) (st := (s.station i).select ((s.station i).sel.choose d t' l c))
      (by rwa [Station.select_sel, hline])
    exact ⟨this.tape, this.station, this.park⟩
  | park i k hr hb hk =>
    have hu : s.library.onForm (s.station i).parked.sel.tape (s.station i).parked.line :=
      Library.onForm_one hl.tape fun e he => by cases he
    have := hl.setStation (i := i) hu
    refine ⟨this.tape, this.station, forall_parks_set k hl.park fun r hr' => ?_⟩
    cases hr'
    exact (hl.station i).1
  | resume i k r line _ _ hk hline =>
    obtain ⟨hrv, hrc⟩ := hv.park k r hk
    have hrt : holdsEntry s.library.tapes r.sel.tape := ((Library.holdsSelections_iff _ _).mp hrv).2.1
    have hu : s.library.onForm ((s.station i).resumed r line).sel.tape ((s.station i).resumed r line).line := by
      change s.library.onForm r.sel.tape line
      rcases hline with rfl | ⟨rfl, hle⟩
      · exact Library.onForm_one hl.tape hrt
      · exact Library.onForm_tapeOf hrt hrc (hl.park k r hk) hle
    have := hl.setStation (i := i) hu
    exact ⟨this.tape, this.station, forall_parks_set k hl.park fun _ h => by cases h⟩
  | emptyPark k => exact ⟨hl.tape, hl.station, forall_parks_set k hl.park fun _ h => by cases h⟩
  | loadTape e x hx hu =>
    refine hl.tapes (fun j y hj => ?_) fun i j hj => ?_
    · simp only [Fin.getElem_fin, Vector.getElem_set] at hj
      split at hj
      · cases hj
        exact hx (hl.tape e)
      · exact hl.tape j y hj
    · by_cases hej : e = j
      · subst hej
        have hin := State.anyStation_eq_false hu i
        refine .inr ⟨?_, by simp⟩
        simp only [hj, beq_self_eq_true, Bool.true_and, Bool.or_eq_false_iff, bne_eq_false_iff_eq] at hin
        exact hin.2
      · left
        have hne : e.val ≠ j.val := fun h => hej (Fin.ext h)
        simp [hne]
  | clearTape e he =>
    refine hl.tapes (fun j y hj => ?_) fun i j hj => ?_
    · simp only [Fin.getElem_fin, Vector.getElem_set] at hj
      split at hj
      · cases hj
      · exact hl.tape j y hj
    · left
      have hne : e.val ≠ j.val := fun h =>
        State.counts_zero rt he (.inl ⟨i, rfl⟩) (hj.trans (congrArg some (Fin.ext h.symm)))
      simp [hne]
  | powerOn =>
    have hr : State.reset.linesInForms = true := by decide +kernel
    obtain ⟨h1, h2, h3⟩ := (State.linesInForms_iff _).mp hr
    exact ⟨h1, h2, h3⟩
  | _ => exact ⟨hl.tape, hl.station, hl.park⟩

/-- Settles O12: the reference counts keep selected tapes VALID, and with VALID tapes every motion ends on its form. -/
theorem stepKeepsLinesInForms : Obligations.StepKeepsLinesInForms := by
  intro s t hs ht
  simp only [Bool.and_eq_true, State.selectionsValid_iff, State.linesInForms_iff] at hs ⊢
  refine step_keeps (law := fun s => (s.refsAgree = true ∧ s.Valid) ∧ s.Lines) (fun s q h => ?_) (fun s t hc h => ?_) hs ht
  · obtain ⟨⟨hr, hv⟩, hl⟩ := h
    exact ⟨⟨hr, hv.station, hv.complete, hv.park⟩, hl.tape, hl.station, hl.park⟩
  · obtain ⟨⟨hr, hv⟩, hl⟩ := h
    exact ⟨⟨hc.refsAgree hr, hc.valid hr hv⟩, hc.lines hr hv hl⟩

end Sys2Proof.Machine
end

section
/-! SUPPORT. The STATION orders of one station (R8, R11 to R14, R18), power-on and the idle timer's expiry: the statements
of one order's whole effect. -/

namespace Sys2Proof.Machine

variable {s : State} {h : Head} {st : Station}

/-! ## An accepted order -/

/-- An accepted STATION order is answered as its sub-function says. -/
theorem exec_stationOrder {c : Instr} {sub : Byte} {p : List Byte} {t : State} {a : Answer}
    (hc : orderFrame c = some ⟨leadOf h 0x09, sub :: p, h.sum⟩) (ha : s.accepts h) (hp : p.length = 4)
    (hr : orderStation h.station (sub :: p) s = (t, a)) : exec c s = .next (t.owe (leadOf h 0x09) a) := by
  obtain ⟨hl, hs, hd⟩ := ha
  have he := exec_of_accepted hc hl hd hs (by simp [hp])
  rwa [show carryOut (leadOf h 0x09) (sub :: p) s = (t, a) from hr] at he

/-- An accepted STATION order that concerns its station alone leaves and answers what its function does there. -/
theorem exec_alone {c : Instr} {sub : Byte} {p : List Byte} {a : Answer}
    {f : Byte → Byte → Byte → Byte → Station → Station × Answer}
    (hc : orderFrame c = some ⟨leadOf h 0x09, sub :: p, h.sum⟩) (ha : s.accepts h) (hp : p.length = 4)
    (ho : orderStation h.station (sub :: p) s = s.stationOrder h.station p f)
    (hf : ∀ x y z u, p = [x, y, z, u] → f x y z u (s.station h.station) = (st, a)) :
    exec c s = .next ((s.setStation h.station st).owe (leadOf h 0x09) a) := by
  obtain ⟨x, y, z, u, hpar, he⟩ := State.stationOrder_of_length (s := s) (i := h.station) hp f
  rw [hf x y z u hpar] at he
  exact exec_stationOrder hc ha hp (ho.trans he)

/-- Such an order, leaving the station as it was, leaves the state as it was. -/
theorem exec_alone_same {c : Instr} {sub : Byte} {p : List Byte} {a : Answer}
    {f : Byte → Byte → Byte → Byte → Station → Station × Answer}
    (hc : orderFrame c = some ⟨leadOf h 0x09, sub :: p, h.sum⟩) (ha : s.accepts h) (hp : p.length = 4)
    (ho : orderStation h.station (sub :: p) s = s.stationOrder h.station p f)
    (hf : ∀ x y z u, p = [x, y, z, u] → f x y z u (s.station h.station) = (s.station h.station, a)) :
    exec c s = .next (s.owe (leadOf h 0x09) a) := by
  have := exec_alone hc ha hp ho hf
  rwa [State.setStation_station] at this

/-! ## Power-on -/

/-- Settles O22. -/
theorem powerOnValues : Obligations.PowerOnValues := by
  intro s
  refine ⟨_, rfl, fun i => ?_, ?_, ?_, ?_, rfl, rfl, rfl, rfl, rfl, rfl, rfl, rfl, rfl, rfl, rfl, rfl, rfl, rfl, rfl, rfl,
    rfl⟩
  · have hi : State.station { State.reset with port := Port.powerOn s.port.raw, pending := s.pending } i =
        Station.powerOn := State.reset_station i
    rw [hi]
    simp [Station.powerOn, Selections.none, Counters.zero, CondRecord.clear, emptyLine, Position.empty]
  · simp [State.reset]
  · simp [State.reset, Library.powerOn]
  · simp [State.reset, Library.powerOn]

/-! ## HOLD, RELEASE, STOP and RESET -/

/-- Settles O23. -/
theorem holdAddsOrder : Obligations.HoldAddsOrder := by
  intro s h p ha hp st holds
  exact exec_alone rfl ha hp (orderStation_hold hp) fun _ _ _ _ _ => rfl

/-- RELEASE at a station that stays where it is: it is not HELD, or PANEL remains (R12). -/
theorem Station.release_stays (h : st.state ≠ .held ∨ st.holds.panel = true) :
    st.release = { st with
      holds := { st.holds with order := false, condition := false }, record := { st.record with first := none } } := by
  refine if_neg ?_
  rcases h with h | h <;> simp [Holds.isEmpty, h]

/-- RELEASE of a HELD station without PANEL (R12, R21). -/
theorem Station.release_ready (hs : st.state = .held) (hp : st.holds.panel = false) (hi : st.idle = .off) :
    st.release = { st with
      holds := { st.holds with order := false, condition := false }, record := { st.record with first := none }
      state := .ready
      idle := if st.timerSetting ≠ 0 ∧ st.busy = true then .running else .off } := by
  have hr : st.release = Station.refreshIdle { st with
      holds := { st.holds with order := false, condition := false }, record := { st.record with first := none }
      state := .ready } := if_pos ⟨hs, by simp [Holds.isEmpty, hp]⟩
  rw [hr, Station.refreshIdle_eq]
  simp [Station.meetsRunning, hi, Station.busy, Station.hasStrikes]

theorem Station.stop_unloaded (h : st.state = .unloaded) : st.stop = (st, .refused .wrongState) := by
  simp [Station.stop, h]

theorem Station.stop_stopped (h : st.state = .stopped) : st.stop = (st, .done) := by
  simp [Station.stop, h]

theorem Station.stop_running (h : st.state = .ready ∨ st.state = .held ∨ st.state = .draining) :
    st.stop = (st.stopWith .operator, .done) := by
  rcases h with h | h | h <;> simp [Station.stop, h]

/-- Settles O24. -/
theorem releaseAndStop : Obligations.ReleaseAndStop := by
  refine ⟨fun s h p ha hp => ?_, fun s h p ha hp => ?_⟩
  · intro st released
    have go : ∀ {u}, st.release = u →
        exec (.stationRelease h p) s = .next ((s.setStation h.station u).owe (leadOf h 0x09) .done) := by
      rintro u rfl
      exact exec_alone rfl ha hp (orderStation_release hp) fun _ _ _ _ _ => rfl
    exact ⟨fun hs => go (Station.release_stays hs), fun hs hpan hi => go (Station.release_ready hs hpan hi)⟩
  · intro st
    exact ⟨fun hs => exec_alone_same rfl ha hp (orderStation_stop hp) fun _ _ _ _ _ => Station.stop_unloaded hs,
      fun hs => exec_alone_same rfl ha hp (orderStation_stop hp) fun _ _ _ _ _ => Station.stop_stopped hs,
      fun hs => exec_alone rfl ha hp (orderStation_stop hp) fun _ _ _ _ _ => Station.stop_running hs⟩

/-- Settles O25. -/
theorem stationResetStartsAfresh : Obligations.StationResetStartsAfresh := by
  intro s h p ha hp st
  refine ⟨st.reset s.port.debounced.hold, exec_alone rfl ha hp (orderStation_reset hp) fun _ _ _ _ _ => rfl, ?_⟩
  rw [Station.reset_eq]
  simp [Selections.complete_iff, Counters.zero, CondRecord.clear, emptyLine, Position.empty]

/-! ## BEGIN JOB and the settings -/

/-- BEGIN JOB answers by its first page, the state and what is composed, in that order (R6, R8). -/
theorem Station.beginJob_eq (job page : Half) (st : Station) : st.beginJob job page =
    if page = 0 then (st, .refused .badField)
    else if st.state = .held then (st, .retry)
    else if st.state ≠ .ready then (st, .refused .wrongState)
    else if st.openPage.isSome = true ∨ st.hasStrikes = true then (st, .refused .openPage)
    else ({ st with job := job, page := page, counters := ⟨0, 0, 0, 0⟩, carry := none }, .done) := by
  unfold Station.beginJob
  cases st.state <;> simp [Station.busy, Counters.zero]

/-- Settles O26. -/
theorem beginJobStartsCounting : Obligations.BeginJobStartsCounting := by
  intro s h j1 j0 p1 p0 ha st go
  have did : ∀ {u a}, st.beginJob (be16 j1 j0) (be16 p1 p0) = (u, a) →
      go = .next ((s.setStation h.station u).owe (leadOf h 0x09) a) := fun hb =>
    exec_alone rfl ha rfl (orderStation_beginJob rfl) fun _ _ _ _ hp => by
      cases hp
      exact hb
  have same : ∀ {a}, st.beginJob (be16 j1 j0) (be16 p1 p0) = (st, a) → go = .next (s.owe (leadOf h 0x09) a) := by
    intro a hb
    rw [did hb, State.setStation_station]
  rw [Station.beginJob_eq] at did same
  refine ⟨fun hp => same ?_, fun hp hs => same ?_, fun hp hr hh => same ?_, fun hp hr hb => same ?_,
    fun hp hr ho hk => did ?_⟩
  · rw [if_pos hp]
  · rw [if_neg hp, if_pos hs]
  · rw [if_neg hp, if_neg hh, if_pos hr]
  · rw [if_neg hp, if_neg (by simp [hr]), if_neg (not_not.mpr hr), if_pos hb]
  · rw [if_neg hp, if_neg (by simp [hr]), if_neg (not_not.mpr hr), if_neg (by simp [ho, hk])]

theorem clampQuota_eq (b : Byte) : clampQuota b = if b = 0 then 1 else if 12 < b.toNat then 12 else b.toNat := by
  have h0 : b = 0 ↔ b.toNat = 0 := by
    rw [← BitVec.toNat_inj]
    rfl
  simp only [clampQuota, Config.maxQuota, h0]
  split
  · omega
  · split <;> omega

/-- The idle timer after SET TIMER (R18, R21). -/
theorem Station.setTimer_eq (b : Byte) (st : Station) : st.setTimer b = { st with
    timerSetting := b.toNat
    idle := if b ≠ 0 ∧ st.state = .ready ∧ (st.openPage.isSome = true ∨ st.hasStrikes = true) then .running else .off } := by
  have h0 : b ≠ 0 ↔ b.toNat ≠ 0 := by
    rw [ne_eq, ← BitVec.toNat_inj]
    rfl
  simp only [Station.setTimer, Station.restartIdle_eq, Station.meetsRunning_iff, h0, Station.busy, Bool.or_eq_true]
  rfl

/-- Settles O29. -/
theorem settingsAreWritten : Obligations.SettingsAreWritten := by
  intro s h a b c d ha st
  refine ⟨exec_stationOrder rfl ha rfl ?_, exec_stationOrder rfl ha rfl ?_, exec_stationOrder rfl ha rfl rfl⟩
  · rw [← clampQuota_eq]
    rfl
  · rw [← Station.setTimer_eq]
    rfl

/-! ## The idle timer's expiry -/

/-- Settles O41. -/
theorem idleExpiryRaisesStalePage : Obligations.IdleExpiryRaisesStalePage := by
  intro s i hd st
  have go : exec (.idleTimerExpiry i) s = .next (s.idleExpiry i) := by
    rw [show exec (.idleTimerExpiry i) s = .next (s.arbitrate.idleExpiry i) from rfl, State.arbitrate_of_not_due _ hd]
  rw [go]
  refine ⟨fun hi => ?_, fun hi => ?_⟩
  · rw [State.idleExpiry, Station.idleExpiry, if_pos hi]
    rfl
  · rw [State.idleExpiry, Station.idleExpiry, if_neg hi, State.setStation_station]

end Sys2Proof.Machine
end

section
/-! SUPPORT. SELECT, PARK and RESUME, DEVICE CLEAR and the HOLD switch (R7, R15 to R17, R27, R153). -/

namespace Sys2Proof.Machine

variable {s : State} {h : Head} {st : Station} {n : Nat}

/-! ## The HOLD switch -/

/-- A debounced change of the HOLD switch, where no choice is due. -/
theorem debouncedEvent_hold (b : Bool) (hb : s.port.debounced.hold ≠ b) : s.debouncedEvent .hold b =
    (s.lineAt .hold b).mapStations (Station.panel b) := by
  have h1 : s.port.debounced.get .hold ≠ b := hb
  have h2 : (s.setRaw .hold b).port.debounced.get .hold ≠ b := hb
  rw [State.debouncedEvent, if_neg h1, State.setDebounced, if_neg h2]
  rfl

theorem Station.panel_on (st : Station) : st.panel true = if st.state = .ready
    then { st with holds := { st.holds with panel := true }, state := .held, idle := .off }
    else { st with holds := { st.holds with panel := true } } := rfl

theorem Station.panel_off (st : Station) : st.panel false = st.removeHolds { st.holds with panel := false } := rfl

theorem Station.panel_off_stays (h : st.state ≠ .held ∨ st.holds.order = true ∨ st.holds.condition = true) :
    st.panel false = { st with holds := { st.holds with panel := false } } := by
  rw [Station.panel_off]
  refine if_neg ?_
  rcases h with h | h | h <;> simp [Holds.isEmpty, h]

theorem Station.panel_off_ready (hs : st.state = .held) (ho : st.holds.order = false) (hc : st.holds.condition = false)
    (hi : st.idle = .off) : st.panel false = { st with
      holds := ⟨false, false, false⟩, state := .ready
      idle := if st.timerSetting ≠ 0 ∧ st.busy = true then .running else .off } := by
  have he : Holds.isEmpty { st.holds with panel := false } = true := by simp [Holds.isEmpty, ho, hc]
  rw [Station.panel_off, Station.removeHolds, if_pos ⟨hs, he⟩, Station.refreshIdle_eq]
  simp [Station.meetsRunning, hi, ho, hc, Station.busy, Station.hasStrikes]

/-- Settles O44. -/
theorem holdSwitchHoldsStations : Obligations.HoldSwitchHoldsStations := by
  refine ⟨fun s hd hb => ?_, fun s hd hb => ?_⟩
  · refine ⟨(s.lineAt .hold true).mapStations (Station.panel true), ?_, rfl, rfl, rfl, rfl, rfl, fun i => ?_⟩
    · rw [show exec .holdSwitchOn s = .next (s.arbitrate.debouncedEvent .hold true) from rfl,
        State.arbitrate_of_not_due _ hd, debouncedEvent_hold true (by simp [hb])]
    · rw [State.station_mapStations]
      exact ⟨rfl, Station.panel_on _⟩
  · refine ⟨(s.lineAt .hold false).mapStations (Station.panel false), ?_, rfl, rfl, rfl, rfl, rfl, fun i => ?_⟩
    · rw [show exec .holdSwitchOff s = .next (s.arbitrate.debouncedEvent .hold false) from rfl,
        State.arbitrate_of_not_due _ hd, debouncedEvent_hold false (by simp [hb])]
    · rw [State.station_mapStations]
      exact ⟨rfl, Station.panel_off_stays, Station.panel_off_ready⟩

/-! ## DEVICE CLEAR -/

/-- Four releases one after another lower each count by the slots that name the entry. -/
theorem dropRef_four (v : Vector Nat n) (pick : Selections → Option (Fin n)) (parks : Vector (Option ParkRecord) 4)
    (e : Fin n) :
    (dropRef (dropRef (dropRef (dropRef v (parkPick pick parks[0])) (parkPick pick parks[1])) (parkPick pick parks[2]))
      (parkPick pick parks[3]))[e] = v[e] - parks.toList.countP fun p => p.any fun r => pick r.sel == some e := by
  have hp : ∀ q : Option ParkRecord, named (parkPick pick q) e =
      if (q.any fun r => pick r.sel == some e) = true then 1 else 0 := fun q => by
    cases q with
    | none => rfl
    | some r => exact (ite_beq_eq_named _ _).symm
  have hl : parks.toList = [parks[0], parks[1], parks[2], parks[3]] := by
    apply List.ext_getElem
    · simp
    · intro k h1 h2
      have hk : k < 4 := by simpa using h1
      rcases (by omega : k = 0 ∨ k = 1 ∨ k = 2 ∨ k = 3) with rfl | rfl | rfl | rfl <;> simp
  rw [hl]
  simp only [dropRef_named, hp, List.countP_cons, List.countP_nil]
  omega

/-- Settles O39. -/
theorem deviceClearClears : Obligations.DeviceClearClears := by
  intro s h ⟨hl, hs, hd⟩
  refine ⟨s.deviceClear, ?_, fun i => ?_, ?_, rfl, fun e => ?_, fun e => ?_, rfl, rfl, rfl, fun hp => ?_,
    fun i p rest hp hf hq => ?_, fun h1 h2 hf => ?_⟩
  · exact exec_of_accepted (f := ⟨leadOf h 0x0C, [0x03], h.sum⟩) rfl hl hd hs (by simp)
  · have : s.deviceClear.station i = { (s.station i).reset s.port.debounced.hold with queue := [] } :=
      State.station_mapStations s i fun st => { st.reset s.port.debounced.hold with queue := [] }
    rw [this, Station.reset_eq]
    simp only [Selections.complete_iff]
    rfl
  · simp [State.deviceClear]
  · simp only [State.deviceClear, RefCounts.releasePark_eq]
    exact ⟨dropRef_four _ _ _ e, dropRef_four _ _ _ e, dropRef_four _ _ _ e⟩
  · simp only [State.deviceClear, RefCounts.releasePark_eq]
    exact dropRef_four _ _ _ e
  · rcases hp with hp | hp <;> simp [State.deviceClear, Port.deviceClear, hp, Port.clearFlight]
  · simp [State.deviceClear, Port.deviceClear, hp, hf, State.flightPage_of_queue hf hq]
  · unfold State.deviceClear Port.deviceClear
    cases hst : s.port.state <;> simp_all

/-! ## PARK and RESUME -/

theorem entryOf_eq_none {b : Byte} (hb : n ≤ b.toNat) : entryOf n b = none :=
  dif_neg (Nat.not_lt.mpr hb)

/-- PARK to a slot number in range: its checks in their order, then the record and the station it leaves (R6, R16). -/
theorem orderPark_entry (i : StationId) (k : Fin 4) (b c d : Byte) (s : State) :
    orderPark i [byteOf k.val, b, c, d] s =
      if (s.station i).state ≠ .ready then (s, .refused .wrongState)
      else if (s.station i).busy then (s, .refused .openPage)
      else if s.parks[k].isSome then (s, .refused .noParkSlot)
      else ({ s.setStation i (s.station i).parked with parks := s.parks.set k (some (s.station i).parkRecord) }, .done) := by
  simp only [orderPark, entryOf_byteOf (by decide : 4 ≤ 256)]

/-- RESUME from an occupied slot, its option byte without unused bits (R6, R17). -/
theorem orderResume_occupied (i : StationId) {k : Fin 4} {o : Byte} (c d : Byte) {s : State} {r : ParkRecord}
    (ho : o.extractLsb' 1 7 = 0) (hk : s.parks[k] = some r) :
    orderResume i [byteOf k.val, o, c, d] s =
      if (s.station i).state ≠ .unloaded ∧ (s.station i).state ≠ .ready then (s, .refused .wrongState)
      else if (s.station i).busy then (s, .refused .openPage)
      else ({ s.setStation i ((s.station i).resumed r
              (if o.getLsbD 0 || (s.library.tapeOf r.sel).formLength < r.line then 1 else r.line)) with
            parks := s.parks.set k none
            library := { s.library with refs := s.library.refs.release (s.station i).sel } }, .done) := by
  simp only [orderResume, entryOf_byteOf (by decide : 4 ≤ 256), ho, hk, ne_eq, not_true_eq_false, if_false]

/-- RESUME from an empty slot (R6, R17). -/
theorem orderResume_empty (i : StationId) {k : Fin 4} {o : Byte} (c d : Byte) {s : State}
    (ho : o.extractLsb' 1 7 = 0) (hk : s.parks[k] = none) :
    orderResume i [byteOf k.val, o, c, d] s =
      if (s.station i).state ≠ .unloaded ∧ (s.station i).state ≠ .ready then (s, .refused .wrongState)
      else if (s.station i).busy then (s, .refused .openPage)
      else (s, .refused .slotEmpty) := by
  simp only [orderResume, entryOf_byteOf (by decide : 4 ≤ 256), ho, hk, ne_eq, not_true_eq_false, if_false]

/-- The state and what is composed are checked before the slot (R6). -/
theorem orderResume_early (i : StationId) (k : Fin 4) {o : Byte} (c d : Byte) (s : State) (ho : o.extractLsb' 1 7 = 0) :
    ((s.station i).state ≠ .unloaded ∧ (s.station i).state ≠ .ready →
      orderResume i [byteOf k.val, o, c, d] s = (s, .refused .wrongState)) ∧
    (¬ ((s.station i).state ≠ .unloaded ∧ (s.station i).state ≠ .ready) → (s.station i).busy = true →
      orderResume i [byteOf k.val, o, c, d] s = (s, .refused .openPage)) := by
  cases hk : s.parks[k] with
  | none =>
    rw [orderResume_empty i c d ho hk]
    exact ⟨fun hs => if_pos hs, fun hs hb => (if_neg hs).trans (if_pos hb)⟩
  | some r =>
    rw [orderResume_occupied i c d ho hk]
    exact ⟨fun hs => if_pos hs, fun hs hb => (if_neg hs).trans (if_pos hb)⟩

/-- Bits 1 to 7 of a byte are clear exactly when it is 0 or 1. -/
theorem extractLsb'_one_eq_zero (b : Byte) : b.extractLsb' 1 7 = 0 ↔ b.toNat ≤ 1 := by
  rw [← BitVec.toNat_inj, BitVec.extractLsb'_toNat]
  have := b.isLt
  simp only [Nat.shiftRight_eq_div_pow, BitVec.ofNat_eq_ofNat, BitVec.toNat_ofNat]
  omega

/-- RESUME gives up one reference for each of the station's own selections. -/
theorem RefCounts.release_get (r : RefCounts) (sel : Selections) :
    (∀ x : Fin 8, (r.release sel).drum[x] = r.drum[x] - (if sel.drum = some x then 1 else 0) ∧
      (r.release sel).tape[x] = r.tape[x] - (if sel.tape = some x then 1 else 0) ∧
      (r.release sel).layout[x] = r.layout[x] - (if sel.layout = some x then 1 else 0)) ∧
    ∀ x : Fin 4, (r.release sel).coll[x] = r.coll[x] - (if sel.coll = some x then 1 else 0) :=
  ⟨fun x => ⟨dropRef_get _ _ x, dropRef_get _ _ x, dropRef_get _ _ x⟩, fun x => dropRef_get _ _ x⟩

/-- The option byte of RESUME with bit 0 as given. -/
theorem optionByte (top : Bool) : (byteOf top.toNat).extractLsb' 1 7 = 0 ∧ (byteOf top.toNat).getLsbD 0 = top := by
  cases top <;> decide

theorem park_takes (ha : s.accepts h) (k : Fin 4) (b c d : Byte) (hr : (s.station h.station).state = .ready)
    (hb : (s.station h.station).busy = false) (hk : s.parks[k] = none) :
    exec (.stationPark h [byteOf k.val, b, c, d]) s = .next (({ s.setStation h.station (s.station h.station).parked with
      parks := s.parks.set k (some (s.station h.station).parkRecord) }).owe (leadOf h 0x09) .done) := by
  refine exec_stationOrder rfl ha rfl ((orderStation_park rfl).trans ?_)
  rw [orderPark_entry, if_neg (not_not.mpr hr), hb, hk]
  rfl

theorem resume_takes (ha : s.accepts h) (k : Fin 4) {o : Byte} (c d : Byte) (ho : o.extractLsb' 1 7 = 0)
    (hr : (s.station h.station).state = .unloaded ∨ (s.station h.station).state = .ready)
    (hb : (s.station h.station).busy = false) {r : ParkRecord} (hk : s.parks[k] = some r) :
    exec (.stationResume h [byteOf k.val, o, c, d]) s = .next (({ s.setStation h.station ((s.station h.station).resumed r
        (if o.getLsbD 0 || (s.library.tapeOf r.sel).formLength < r.line then 1 else r.line)) with
      parks := s.parks.set k none
      library := { s.library with refs := s.library.refs.release (s.station h.station).sel } }).owe (leadOf h 0x09) .done) := by
  refine exec_stationOrder rfl ha rfl ((orderStation_resume rfl).trans ?_)
  rw [orderResume_occupied _ _ _ ho hk, if_neg (by tauto), hb]
  rfl

/-- Settles O28. -/
theorem parkAndResumeMoveTheContext : Obligations.ParkAndResumeMoveTheContext := by
  refine ⟨fun s h k b c d ha => ?park, fun s h k r t e top c d ha => ?resume, fun s h a b c d ha => ?refused⟩
  case park =>
    intro st hr ho hs hk
    exact park_takes ha k b c d hr ((Station.busy_eq_false_iff _).mpr ⟨ho, hs⟩) hk
  case resume =>
    intro st hr ho hs hk he ht
    obtain ⟨h1, h2⟩ := optionByte top
    refine ⟨_, _, resume_takes ha k c d h1 hr ((Station.busy_eq_false_iff _).mpr ⟨ho, hs⟩) hk, ?_, rfl,
      RefCounts.release_get ..⟩
    rw [Library.tapeOf_eq he ht, h2]
    simp only [Bool.or_eq_true, decide_eq_true_eq]
    rfl
  case refused =>
    intro st refusedWith
    have parkSays : ∀ {a : Byte} {x}, orderPark h.station [a, b, c, d] s = (s, .refused x) →
        exec (.stationPark h [a, b, c, d]) s = refusedWith x := fun hx =>
      exec_stationOrder rfl ha rfl ((orderStation_park rfl).trans hx)
    have resumeSays : ∀ {a : Byte} {x}, orderResume h.station [a, b, c, d] s = (s, .refused x) →
        exec (.stationResume h [a, b, c, d]) s = refusedWith x := fun hx =>
      exec_stationOrder rfl ha rfl ((orderStation_resume rfl).trans hx)
    refine ⟨fun h4 => parkSays ?_, fun h4 => resumeSays ?_, fun k => ?_⟩
    · simp [orderPark, entryOf_eq_none h4]
    · unfold orderResume
      rcases Nat.lt_or_ge a.toNat 4 with hlt | hge
      · have hb : b.extractLsb' 1 7 ≠ 0 := by
          rw [ne_eq, extractLsb'_one_eq_zero]
          omega
        simp only [show entryOf 4 a = some ⟨a.toNat, hlt⟩ from dif_pos hlt]
        exact if_pos hb
      · simp [entryOf_eq_none hge]
    · refine ⟨fun hs => parkSays ?_, fun hs hb => parkSays ?_, fun hs hb hk => parkSays ?_, fun hb hu hr => resumeSays ?_,
        fun hb hs hw => resumeSays ?_, fun hb hs hw hk => resumeSays ?_⟩
      · rw [orderPark_entry, if_pos hs]
      · rw [orderPark_entry, if_neg (not_not.mpr hs), if_pos hb]
      · rw [orderPark_entry, if_neg (not_not.mpr hs), if_neg (by simpa using hb), if_pos hk]
      · exact (orderResume_early _ k c d s ((extractLsb'_one_eq_zero b).mpr hb)).1 ⟨hu, hr⟩
      · exact (orderResume_early _ k c d s ((extractLsb'_one_eq_zero b).mpr hb)).2 (by tauto) hw
      · rw [orderResume_empty _ _ _ ((extractLsb'_one_eq_zero b).mpr hb) hk, if_neg (by tauto),
          if_neg (Bool.eq_false_iff.mp hw)]

/-! ## SELECT -/

/-- A drum, tape or layout field of SELECT: an entry, or KEEP for `none`. -/
def fieldChoice (o : Option (Fin n)) : Choice n :=
  match o with
  | none => .keep
  | some e => .use (some e)

/-- The collation field: an entry, NONE, or KEEP for `none`. -/
def collChoice (o : Option (Option (Fin n))) : Choice n :=
  match o with
  | none => .keep
  | some e => .use e

/-- The byte of a drum, tape or layout field (R180). -/
def fieldByte : Option (Fin 8) → Byte
  | none => 0xFF
  | some e => byteOf e.val

/-- The byte of the collation field (R180). -/
def collByte : Option (Option (Fin 4)) → Byte
  | none => 0xFF
  | some none => 0xFE
  | some (some e) => byteOf e.val

theorem Choice.ofByte_fieldByte : ∀ o : Option (Fin 8), Choice.ofByte (fieldByte o) = some (fieldChoice o)
  | none => rfl
  | some e => by
    have hne : byteOf e.val ≠ 0xFF := by
      fin_cases e <;> decide
    rw [fieldByte, Choice.ofByte, if_neg hne, entryOf_byteOf (by decide)]
    rfl

theorem Choice.ofCollByte_collByte : ∀ o : Option (Option (Fin 4)), Choice.ofCollByte (collByte o) = some (collChoice o)
  | none => rfl
  | some none => rfl
  | some (some e) => by
    have hne : byteOf e.val ≠ 0xFF ∧ byteOf e.val ≠ 0xFE := by
      fin_cases e <;> decide
    rw [collByte, Choice.ofCollByte, if_neg hne.1, if_neg hne.2, entryOf_byteOf (by decide)]
    rfl

theorem fieldChoice_apply (o old : Option (Fin n)) : (fieldChoice o).apply old = o.or old := by
  cases o <;> rfl

theorem collChoice_apply (o : Option (Option (Fin n))) (old : Option (Fin n)) : (collChoice o).apply old = o.getD old := by
  cases o <;> rfl

section
variable {α : Type} (v : Vector (Option α) n)

theorem namesEmpty_field (o : Option (Fin n)) : namesEmpty v (fieldChoice o) = true ↔ ∃ e, o = some e ∧ v[e] = none := by
  cases o <;> simp [namesEmpty, fieldChoice]

theorem namesEmpty_coll (o : Option (Option (Fin n))) :
    namesEmpty v (collChoice o) = true ↔ ∃ e, o = some (some e) ∧ v[e] = none := by
  match o with
  | none => simp [namesEmpty, collChoice]
  | some none => simp [namesEmpty, collChoice]
  | some (some e) => simp [namesEmpty, collChoice]

end

/-- A byte that is no entry and not KEEP names nothing. -/
theorem Choice.ofByte_eq_none {b : Byte} (h : 8 ≤ b.toNat ∧ b ≠ 0xFF) : Choice.ofByte b = none := by
  rw [Choice.ofByte, if_neg h.2, entryOf_eq_none h.1]
  rfl

theorem Choice.ofCollByte_eq_none {b : Byte} (h : 4 ≤ b.toNat ∧ b ≠ 0xFE ∧ b ≠ 0xFF) : Choice.ofCollByte b = none := by
  rw [Choice.ofCollByte, if_neg h.2.2, if_neg h.2.1, entryOf_eq_none h.1]
  rfl

/-- SELECT of four fields that read: its checks in the order of R7, then its effect. -/
theorem orderSelect_choices {i : StationId} {bd bt bl bc : Byte} {d t l : Choice 8} {c : Choice 4}
    (hd : Choice.ofByte bd = some d) (ht : Choice.ofByte bt = some t) (hl : Choice.ofByte bl = some l)
    (hc : Choice.ofCollByte bc = some c) (s : State) :
    orderSelect i [bd, bt, bl, bc] s =
      let st := s.station i
      let new := st.sel.choose d t l c
      if st.state = .draining then (s, .refused .wrongState)
      else if st.busy then (s, .refused .openPage)
      else if namesEmpty s.library.drums d || namesEmpty s.library.tapes t || namesEmpty s.library.layouts l ||
          namesEmpty s.library.colls c then (s, .refused .emptyEntry)
      else if new.tape ≠ st.sel.tape ∧ st.line ≠ 1 then (s, .refused .notAtTop)
      else
        ({ s.setStation i (st.select new) with
            library := { s.library with refs := s.library.refs.move st.sel new } }, .done) := by
  simp only [orderSelect, hd, ht, hl, hc]

/-- A SELECT one of whose fields does not read is refused (R7 check 1). -/
theorem orderSelect_badField {i : StationId} {bd bt bl bc : Byte} (s : State)
    (hb : Choice.ofByte bd = none ∨ Choice.ofByte bt = none ∨ Choice.ofByte bl = none ∨ Choice.ofCollByte bc = none) :
    orderSelect i [bd, bt, bl, bc] s = (s, .refused .badField) := by
  unfold orderSelect
  dsimp only
  split
  · rename_i h1 h2 h3 h4
    simp [h1, h2, h3, h4] at hb
  · rfl

/-- The station a taken SELECT leaves (R7, R47, R102). -/
theorem Station.select_eq (new : Selections) (st : Station) : st.select new = { st with
    sel := new
    overflow := if new.tape = st.sel.tape then st.overflow else false
    carry := if new.coll = st.sel.coll then st.carry else none
    state := if st.state = StationState.unloaded ∧ new.drum.isSome = true ∧ new.tape.isSome = true ∧ new.layout.isSome = true
      then (if st.holds.isEmpty then .ready else .held) else st.state } := by
  rw [Station.select]
  simp only [Selections.complete_iff]
  split <;> rfl

/-- The counts after a SELECT (R116). -/
theorem RefCounts.move_get (r : RefCounts) (old new : Selections) :
    (∀ x : Fin 8,
      (r.move old new).drum[x] = (if new.drum = old.drum then r.drum[x] else
        r.drum[x] - (if old.drum = some x then 1 else 0) + (if new.drum = some x then 1 else 0)) ∧
      (r.move old new).tape[x] = (if new.tape = old.tape then r.tape[x] else
        r.tape[x] - (if old.tape = some x then 1 else 0) + (if new.tape = some x then 1 else 0)) ∧
      (r.move old new).layout[x] = (if new.layout = old.layout then r.layout[x] else
        r.layout[x] - (if old.layout = some x then 1 else 0) + (if new.layout = some x then 1 else 0))) ∧
    ∀ x : Fin 4, (r.move old new).coll[x] = (if new.coll = old.coll then r.coll[x] else
      r.coll[x] - (if old.coll = some x then 1 else 0) + (if new.coll = some x then 1 else 0)) := by
  have get : ∀ {m : Nat} (v : Vector Nat m) (o o' : Option (Fin m)) (x : Fin m), (moveRef v o o')[x] =
      if o' = o then v[x] else v[x] - (if o = some x then 1 else 0) + (if o' = some x then 1 else 0) := by
    intro m v o o' x
    rw [moveRef_get]
    exact if_congr eq_comm rfl rfl
  exact ⟨fun x => ⟨get _ _ _ x, get _ _ _ x, get _ _ _ x⟩, fun x => get _ _ _ x⟩

/-- An accepted SELECT is answered as `orderSelect` says. -/
theorem exec_select (ha : s.accepts h) {a b c d : Byte} {t : State} {x : Answer}
    (hr : orderSelect h.station [a, b, c, d] s = (t, x)) :
    exec (.select h [a, b, c, d]) s = .next (t.owe (leadOf h 0x03) x) := by
  obtain ⟨hl, hs, hd⟩ := ha
  have he := exec_of_accepted (c := .select h [a, b, c, d]) (f := ⟨leadOf h 0x03, [a, b, c, d], h.sum⟩) rfl hl hd hs
    (by simp)
  rwa [show carryOut (leadOf h 0x03) [a, b, c, d] s = (t, x) from hr] at he

/-- Settles O30. -/
theorem selectReplacesSelections : Obligations.SelectReplacesSelections := by
  refine ⟨fun s h a b c d ha => ?bad, fun s h d t l c ha => ?fields⟩
  case bad =>
    intro bad hb
    refine exec_select ha (orderSelect_badField s ?_)
    rcases hb with hb | hb | hb | hb
    · exact .inl (Choice.ofByte_eq_none hb)
    · exact .inr (.inl (Choice.ofByte_eq_none hb))
    · exact .inr (.inr (.inl (Choice.ofByte_eq_none hb)))
    · exact .inr (.inr (.inr (Choice.ofCollByte_eq_none hb)))
  case fields =>
    intro st field collField new go refusedWith empty
    have hnew : st.sel.choose (fieldChoice d) (fieldChoice t) (fieldChoice l) (collChoice c) = new := by
      simp only [Selections.choose, fieldChoice_apply, collChoice_apply]
      rfl
    have hempty : (namesEmpty s.library.drums (fieldChoice d) || namesEmpty s.library.tapes (fieldChoice t) ||
        namesEmpty s.library.layouts (fieldChoice l) || namesEmpty s.library.colls (collChoice c)) = true ↔ empty := by
      simp only [Bool.or_eq_true, namesEmpty_field, namesEmpty_coll, or_assoc]
      rfl
    have order := orderSelect_choices (i := h.station) (Choice.ofByte_fieldByte d) (Choice.ofByte_fieldByte t)
      (Choice.ofByte_fieldByte l) (Choice.ofCollByte_collByte c) s
    dsimp only at order
    simp only [show (s.station h.station).sel.choose _ _ _ _ = new from hnew] at order
    have answers : ∀ {u x}, orderSelect h.station [fieldByte d, fieldByte t, fieldByte l, collByte c] s = (u, x) →
        go = .next (u.owe (leadOf h 0x03) x) := fun hr => exec_select ha hr
    refine ⟨fun hs => answers ?_, fun hs hb => answers ?_, fun hs hb he => answers ?_, fun hs hb he ht hl => answers ?_,
      fun hs ho hk hd ht hl hc htop => 
        ⟨{ s.library with refs := s.library.refs.move st.sel new }, answers ?_, rfl, RefCounts.move_get ..⟩⟩
    · rw [order, if_pos hs]
    · rw [order, if_neg hs, if_pos hb]
    · rw [order, if_neg hs, if_neg (Bool.eq_false_iff.mp hb), if_pos (hempty.mpr he)]
    · rw [order, if_neg hs, if_neg (Bool.eq_false_iff.mp hb), if_neg (fun hn => he (hempty.mp hn)), if_pos ⟨ht, hl⟩]
    · have he : ¬ empty := by
        rintro (⟨e, h1, h2⟩ | ⟨e, h1, h2⟩ | ⟨e, h1, h2⟩ | ⟨e, h1, h2⟩)
        · simpa [h2] using hd e h1
        · simpa [h2] using ht e h1
        · simpa [h2] using hl e h1
        · simpa [h2] using hc e h1
      have hb : (s.station h.station).busy = false := (Station.busy_eq_false_iff _).mpr ⟨ho, hk⟩
      rw [order, if_neg hs, if_neg (Bool.eq_false_iff.mp hb), if_neg (fun hn => he (hempty.mp hn)),
        if_neg (fun hn => hn.2 (htop hn.1)), Station.select_eq]

end Sys2Proof.Machine
end

section
/-! SUPPORT. What the commit puts on the page (R56, R75 to R81), what closing it adds to the queue (R82, R138), and END JOB
(R9). -/

namespace Sys2Proof.Machine

variable {t : Tools} {w : Work} {st : Station}

/-! ## Strikes and cells (R57) -/

theorem Station.hasStrikes_eq_false_iff (st : Station) :
    st.hasStrikes = false ↔ ∀ p ∈ st.strikes.toList, p.strikes = [] := by
  simp only [Station.hasStrikes, List.any_eq_false, Bool.not_eq_true', List.isEmpty_eq_false_iff, not_not]

/-- A cell is empty exactly when its strike list is. -/
theorem classify_isEmpty (l : List Strike) : (classify l).isEmpty = true ↔ l = [] := by
  constructor
  · intro h
    by_contra hne
    obtain ⟨k, hk⟩ := List.exists_mem_of_ne_nil l hne
    unfold classify at h
    cases k with
    | glyph g =>
      have hg : glyphsOf l ≠ [] := List.ne_nil_of_mem (List.mem_filterMap.mpr ⟨_, hk, rfl⟩)
      have hd : distinct (glyphsOf l) ≠ [] := by
        cases hgl : glyphsOf l with
        | nil => exact absurd hgl hg
        | cons a as => simp [distinct]
      split at h
      · rename_i h0
        exact hd h0
      all_goals simp [Cell.isEmpty] at h
    | underscore =>
      have hu : l.contains Strike.underscore = true := List.contains_iff_mem.mpr hk
      split at h <;> simp [Cell.isEmpty] at h
      exact h hk
  · rintro rfl
    rfl

/-- Without strikes every cell of the pending line is empty, and none clashes. -/
theorem cells_of_no_strikes (h : st.hasStrikes = false) :
    (st.strikes.toList.map fun c => classify c.strikes).all Cell.isEmpty = true ∧
    lowestClash 1 st.strikes.toList = none := by
  rw [Station.hasStrikes_eq_false_iff] at h
  constructor
  · simp only [List.all_map, List.all_eq_true, Function.comp_apply, classify_isEmpty]
    exact h
  · generalize st.strikes.toList = l at h
    generalize 1 = n
    induction l generalizing n with
    | nil => rfl
    | cons c cs ih =>
      have hc : clashes c.strikes = false := by
        rw [h c (by simp)]
        rfl
      rw [lowestClash, hc]
      exact ih (fun p hp => h p (by simp [hp])) _

theorem cells_of_strikes (h : st.hasStrikes = true) :
    (st.strikes.toList.map fun c => classify c.strikes).all Cell.isEmpty = false := by
  rw [← Bool.not_eq_true]
  intro hall
  have hn : st.hasStrikes = false := by
    rw [Station.hasStrikes_eq_false_iff]
    simpa only [List.all_map, List.all_eq_true, Function.comp_apply, classify_isEmpty] using hall
  rw [h] at hn
  cases hn

/-! ## The committed line on the page -/

/-- The page `p` is `o` with at most one line record more, of carriage line `n`. -/
structure Page.Grown (n : Nat) (o p : Page) : Prop where
  job : p.job = o.job
  page : p.page = o.page
  lines : ∃ new, p.lines = o.lines ++ new ∧ new.length ≤ 1 ∧ ∀ x ∈ new, x.line = n

theorem Page.file_grown (n y : Nat) (cells : List PlacedCell) (breaks : List Nat) (o : Page) :
    Page.Grown n o (o.file n y cells breaks) := by
  unfold Page.file
  split
  · exact ⟨rfl, rfl, [], by simp⟩
  · exact ⟨rfl, rfl, [⟨n, y, cells, breaks⟩], by simp⟩

/-- A committed line goes to the page it is given, and to no other (R75). -/
theorem takeLine_openPage (cells : List Cell) (o : Page) (w : Work) :
    ∃ p, (takeLine t cells o w).st.openPage = some p ∧ Page.Grown w.st.line o p := by
  unfold takeLine
  lift_lets
  intro line y foot placed dropped w1 p1 v p2 st
  have hp1 : p1.job = o.job ∧ p1.page = o.page ∧ p1.lines = o.lines := by
    dsimp only [p1]
    split <;> exact ⟨rfl, rfl, rfl⟩
  have hp2 : Page.Grown w.st.line o p2 := by
    have h := Page.file_grown line y (if foot then [] else sortByX placed.1) v.1.breaks { p1 with columns := v.1.columns }
    obtain ⟨hj, hg, hl⟩ := h
    obtain ⟨h1, h2, h3⟩ := hp1
    exact ⟨hj.trans h1, hg.trans h2, h3 ▸ hl⟩
  split
  · exact ⟨_, rfl, hp2.job, hp2.page, hp2.lines⟩
  · exact ⟨_, rfl, hp2⟩

/-- A commit without strikes does nothing but empty the line (R56). -/
theorem commit_of_no_strikes (h : w.st.hasStrikes = false) :
    commit t w = { w with st := { w.st with strikes := emptyLine } } := by
  obtain ⟨hc, hl⟩ := cells_of_no_strikes h
  simp only [commit, hc, hl, raiseAt, if_true]

/-- A commit with strikes is a line taken by the open page, or by one opened for it (R56, R80). -/
theorem commit_of_strikes (h : w.st.hasStrikes = true) :
    (commit t w).st.counters.lines = w.st.counters.lines + 1 ∧
    ∃ p, (commit t w).st.openPage = some p ∧
      Page.Grown w.st.line (w.st.openPage.getD (Page.opening w.st t.layout)) p := by
  have keep : ∀ {α : Type} (f : Station → α), (∀ e st, f (Station.raise t.table e st) = f st) →
      ∀ p, f (raiseAt t .strikeClash p w).st = f w.st := fun f hf p =>
    raiseAt_keeps (Q := fun x => f x.st = f w.st) (fun e x hx => (hf e x.st).trans hx) _ p rfl
  have hopen := keep Station.openPage (fun e st => st.raise_openPage t.table e) (lowestClash 1 w.st.strikes.toList)
  have hline := keep Station.line (fun e st => st.raise_line t.table e) (lowestClash 1 w.st.strikes.toList)
  have hlines := keep (fun st => st.counters.lines) (fun e st => by rw [st.raise_counters]) (lowestClash 1 w.st.strikes.toList)
  have hjob := keep Station.job (fun e st => st.raise_job t.table e) (lowestClash 1 w.st.strikes.toList)
  have hpage := keep Station.page (fun e st => st.raise_page t.table e) (lowestClash 1 w.st.strikes.toList)
  unfold commit
  simp only [cells_of_strikes h, Bool.false_eq_true, if_false]
  generalize raiseAt t .strikeClash (lowestClash 1 w.st.strikes.toList) w = w1 at hopen hline hlines hjob hpage ⊢
  constructor
  · refine takeLine_keeps (Q := fun x => x.st.counters.lines = w.st.counters.lines + 1)
      (fun e x hx => (congrArg Counters.lines (x.st.raise_counters t.table e)).trans hx) (fun _ _ _ hx => hx) _ _ ?_
    exact congrArg (· + 1) hlines
  · refine (takeLine_openPage _ _ _).imp fun p hp => ⟨hp.1, ?_⟩
    simpa only [Page.opening, hjob, hpage, hopen, hline] using hp.2

/-! ## Closing the page (R82) -/

/-- What raising a condition and writing the carry key leave alone, completing a page leaves alone. -/
theorem completePage_proj {α : Type} (f : Station → α) (hr : ∀ e st, f (Station.raise t.table e st) = f st)
    (hk : ∀ k st, f { st with carry := k } = f st) (p : Page) (w : Work) : f (completePage t p w).2.st = f w.st := by
  unfold completePage
  split
  · rfl
  · exact (hk _ _).trans (seamChain_st hr _ _ _ _ _)

/-- A completed page is the page with its seam breaks counted. -/
theorem completePage_page (t : Tools) (p : Page) (w : Work) :
    (completePage t p w).1 = { p with seamBreaks := (completePage t p w).1.seamBreaks } := by
  unfold completePage
  split <;> rfl

@[simp] theorem completePage_queue (t : Tools) (p : Page) (w : Work) : (completePage t p w).2.st.queue = w.st.queue :=
  completePage_proj Station.queue (fun e st => st.raise_queue t.table e) (fun _ _ => rfl) p w

/-- Closing a page keeps what raising a condition and moving the page to the queue keep. -/
theorem closePage_keeps {Q : Work → Prop} (hr : ∀ e w, Q w → Q (w.raise t.table e))
    (hc : ∀ p k w, Q w → Q { w with st := { w.st with openPage := none, queue := w.st.queue ++ [p], carry := k } })
    (endJob : Bool) (p : Page) (hw : Q w) : Q (closePage t endJob p w) := by
  unfold closePage completePage
  split
  · exact hc _ w.st.carry _ hw
  · have h := seamChain_keeps (t := t) hr t.layout.windows p.columns 0 w.st.carry w hw
    generalize seamChain t 0 t.layout.windows p.columns w.st.carry w = r at h
    exact hc (Page.finish t.layout endJob { p with seamBreaks := p.seamBreaks + r.1.1 }) r.1.2 r.2 h

theorem closePage_proj {α : Type} (f : Station → α) (hr : ∀ e st, f (Station.raise t.table e st) = f st)
    (hc : ∀ p k st, f { st with openPage := none, queue := st.queue ++ [p], carry := k } = f st)
    (endJob : Bool) (p : Page) (w : Work) : f (closePage t endJob p w).st = f w.st :=
  closePage_keeps (Q := fun x => f x.st = f w.st) (fun e x h => (hr e x.st).trans h) (fun p k x h => (hc p k x.st).trans h)
    endJob p rfl

/-! ## The work of END JOB (R9) -/

/-- END JOB's close is a form end's, but for the mark of its page and the carriage. -/
theorem endJobWork_of_page {p : Page} (hp : (commit t ⟨st, false, false⟩).st.openPage = some p) :
    ∃ (q : Page) (line : Nat) (mark : Bool),
      let w := formEnd t (commit t ⟨st, false, false⟩)
      w.st.queue = st.queue ++ [{ q with endJob := false }] ∧ q.state = .waiting ∧ q.endJob = true ∧
      q.job = p.job ∧ q.page = p.page ∧ q.lines = p.lines ∧
      endJobWork t st = { w with st := { w.st with queue := st.queue ++ [q], line := line, overflow := mark } } := by
  have hq := (completePage_queue t p (commit t ⟨st, false, false⟩)).trans (commit_queue t ⟨st, false, false⟩)
  have hpage := completePage_page t p (commit t ⟨st, false, false⟩)
  simp only [formEnd, endJobWork, hp, closePage, Station.countPage]
  generalize completePage t p (commit t ⟨st, false, false⟩) = r at hq hpage
  rw [hq, hpage]
  exact ⟨Page.finish t.layout true { p with seamBreaks := r.1.seamBreaks }, r.2.st.line, r.2.st.overflow, rfl, rfl, rfl,
    rfl, rfl, rfl, rfl⟩

theorem endJobWork_of_no_page (hp : (commit t ⟨st, false, false⟩).st.openPage = none) :
    endJobWork t st = commit t ⟨st, false, false⟩ := by
  simp only [endJobWork, hp]

/-! ## Stops and holds in the course of an order -/

/-- No disposition is HOLD or STOP. -/
def Dispositions.tame (d : Dispositions) : Prop := ∀ k : Fin 16, d[k] ≠ .hold ∧ d[k] ≠ .stop

/-- How a READY station `st` comes through the work of an order: what is not noted, or meets no HOLD or STOP, leaves it READY
with its hold causes; a stop is noted, raises STOPPED and has its code. -/
structure Work.Comes (t : Tools) (st : Station) (w : Work) : Prop where
  calm : w.noted = false ∨ t.table.tame → w.st.state = .ready ∧ w.st.holds = st.holds
  stopped : w.st.state = .stopped → w.noted = true ∧ w.st.causes.stopped = true ∧
    (w.st.stopCode = .conditionStop ∨ w.st.stopCode = .secondCondition)
  running : w.st.state ≠ .stopped → w.st.stopCode = st.stopCode

theorem Work.Comes.raise (e : CondEntry) (h : w.Comes t st) : (w.raise t.table e).Comes t st := by
  have hnoted : (w.raise t.table e).noted = (w.noted || (w.st.state != .stopped && t.table[e.kind.number] != .ignore)) := rfl
  by_cases hs : w.st.state = .stopped
  · have he : (w.raise t.table e).st = w.st.counted e.kind := if_pos hs
    have hn : (w.raise t.table e).noted = w.noted := by rw [hnoted, hs]; exact Bool.or_false _
    refine ⟨fun hc => ?_, fun _ => ?_, fun hr => ?_⟩
    · rw [hn] at hc
      rw [he]
      exact h.calm hc
    · rw [he, hn]
      exact h.stopped hs
    · rw [he] at hr
      exact absurd hs hr
  have he : (w.raise t.table e).st = (w.st.counted e.kind).applyDisposition e t.table[e.kind.number] := if_neg hs
  cases hd : t.table[e.kind.number] with
  | ignore =>
    have hn : (w.raise t.table e).noted = w.noted := by rw [hnoted, hd]; simp
    rw [hd] at he
    refine ⟨fun hc => ?_, fun hr => ?_, fun _ => ?_⟩
    · rw [hn] at hc
      rw [he]
      exact h.calm hc
    · rw [he] at hr
      exact absurd hr hs
    · rw [he]
      exact h.running hs
  | note =>
    have hn : (w.raise t.table e).noted = true := by rw [hnoted, hd]; simp [hs]
    rw [hd] at he
    refine ⟨fun hc => ?_, fun hr => ?_, fun _ => ?_⟩
    · rw [he]
      exact h.calm (.inr (hc.resolve_left (Bool.not_eq_false _ ▸ hn)))
    · rw [he] at hr
      exact absurd hr hs
    · rw [he]
      exact h.running hs
  | hold =>
    have hn : (w.raise t.table e).noted = true := by rw [hnoted, hd]; simp [hs]
    have hcalm : ¬ ((w.raise t.table e).noted = false ∨ t.table.tame) := fun hc =>
      absurd hd ((hc.resolve_left (Bool.not_eq_false _ ▸ hn)) _).1
    rw [hd] at he
    cases hh : w.st.holds.condition with
    | true =>
      have he' : (w.raise t.table e).st = ((w.st.counted e.kind).noteEntry e).stopWith .secondCondition :=
        he.trans (if_pos hh)
      refine ⟨fun hc => absurd hc hcalm, fun _ => ?_, fun hr => ?_⟩
      · rw [he']
        exact ⟨hn, rfl, .inr rfl⟩
      · rw [he'] at hr
        exact absurd rfl hr
    | false =>
      have he' : (w.raise t.table e).st =
          ((w.st.counted e.kind).noteEntry e).addHolds { w.st.holds with condition := true } :=
        he.trans (if_neg (Bool.eq_false_iff.mp hh))
      refine ⟨fun hc => absurd hc hcalm, fun hr => absurd hr ?_, fun _ => ?_⟩
      · rw [he', Station.addHolds]
        split
        · simp
        · exact hs
      · rw [he', Station.addHolds]
        split <;> exact h.running hs
  | stop =>
    have hn : (w.raise t.table e).noted = true := by rw [hnoted, hd]; simp [hs]
    rw [hd] at he
    refine ⟨fun hc => absurd hd ((hc.resolve_left (Bool.not_eq_false _ ▸ hn)) _).2, fun _ => ?_, fun hr => ?_⟩
    · rw [he]
      exact ⟨hn, rfl, .inl rfl⟩
    · rw [he] at hr
      exact absurd rfl hr

theorem Work.Comes.commit (h : w.Comes t st) : (commit t w).Comes t st :=
  commit_keeps (Q := fun x => x.Comes t st) (fun _ _ hx => hx.raise _) (fun _ _ ⟨a, b, c⟩ => ⟨a, b, c⟩)
    (fun _ _ ⟨a, b, c⟩ => ⟨a, b, c⟩) (fun _ _ _ ⟨a, b, c⟩ => ⟨a, b, c⟩) h

/-- The page is closed, numbered on, and the line and mark set: what comes through the commit comes through the form end. -/
theorem Work.Comes.formEnd_of_page {p : Page} (hp : w.st.openPage = some p) (h : w.Comes t st) :
    (formEnd t w).Comes t st := by
  obtain ⟨a, b, c⟩ := closePage_keeps (Q := fun x => x.Comes t st) (fun _ _ hx => hx.raise _)
    (fun _ _ _ ⟨a, b, c⟩ => ⟨a, b, c⟩) false p h
  simp only [formEnd, hp]
  exact ⟨a, b, c⟩

/-- A READY station starts an order so. -/
theorem Work.Comes.start (hs : st.state = .ready) : Work.Comes t st ⟨st, false, false⟩ where
  calm _ := ⟨hs, rfl⟩
  stopped h := by
    rw [hs] at h
    cases h
  running _ := rfl

theorem Work.Comes.endJobWork (hs : st.state = .ready) : (endJobWork t st).Comes t st := by
  have hc := (Work.Comes.start (t := t) hs).commit
  cases hp : (Sys2Proof.Machine.commit t ⟨st, false, false⟩).st.openPage with
  | none => rwa [endJobWork_of_no_page hp]
  | some p =>
    obtain ⟨q, line, mark, _, _, _, _, _, _, he⟩ := endJobWork_of_page hp
    obtain ⟨a, b, c⟩ := hc.formEnd_of_page hp
    rw [he]
    exact ⟨a, b, c⟩

/-! ## A form end's counts (R41, R43) -/

/-- A form end counts a page closed, goes to the next page number and leaves the other counters alone. -/
theorem formEnd_counts (t : Tools) (w : Work) :
    (formEnd t w).st.counters = { w.st.counters with closed := w.st.counters.closed + 1 } ∧
    (formEnd t w).st.page = nextPage w.st.page := by
  cases hp : w.st.openPage with
  | none => simp only [formEnd, hp]; exact ⟨rfl, rfl⟩
  | some p =>
    have hc := closePage_proj (t := t) (fun st => (st.counters, st.page)) (fun e st => by simp) (fun _ _ _ => rfl) false p w
    simp only [Prod.mk.injEq] at hc
    simp only [formEnd, hp, Station.countPage, hc, and_self]

/-- A form end that closes a page adds no report. -/
theorem formEnd_reports {p : Page} (hp : w.st.openPage = some p) : (formEnd t w).st.reports = w.st.reports := by
  simp only [formEnd, hp]
  exact closePage_proj (t := t) Station.reports (fun e st => st.raise_reports t.table e) (fun _ _ _ => rfl) false p w

/-! ## END JOB (R9) -/

/-- With a page or strikes, a station has an open page after the commit: its own, or one opened for the line (R80). -/
theorem commit_leaves_page (h : (st.openPage.isSome || st.hasStrikes) = true) :
    ∃ p, (commit t ⟨st, false, false⟩).st.openPage = some p ∧
      p.job = (st.openPage.getD (Page.opening st t.layout)).job ∧ p.page = (st.openPage.getD (Page.opening st t.layout)).page ∧
      ∃ new, p.lines = (st.openPage.map Page.lines).getD [] ++ new ∧ new.length ≤ (if st.hasStrikes then 1 else 0) ∧
        ∀ x ∈ new, x.line = st.line := by
  have hl : (st.openPage.getD (Page.opening st t.layout)).lines = (st.openPage.map Page.lines).getD [] := by
    cases st.openPage <;> rfl
  cases hs : st.hasStrikes with
  | true =>
    obtain ⟨p, hp, hj, hg, new, hn, h1⟩ := (commit_of_strikes (t := t) (w := ⟨st, false, false⟩) hs).2
    exact ⟨p, hp, hj, hg, new, hl ▸ hn, h1⟩
  | false =>
    rw [hs, Bool.or_false] at h
    obtain ⟨p, hp⟩ := Option.isSome_iff_exists.mp h
    rw [commit_of_no_strikes hs]
    exact ⟨p, hp, by simp [hp], by simp [hp], [], by simp [hp]⟩

theorem commit_lines (st : Station) : (commit t ⟨st, false, false⟩).st.counters.lines =
    if st.hasStrikes then st.counters.lines + 1 else st.counters.lines := by
  cases hs : st.hasStrikes with
  | true => exact (commit_of_strikes (w := ⟨st, false, false⟩) hs).1
  | false => rw [commit_of_no_strikes hs]; rfl

/-- END JOB writes nothing but the line, the mark, the carry key, the idle timer, the state and DRAINED after its work. -/
theorem Station.finishJob_eq (st : Station) : st.finishJob = { st with
    line := 1, overflow := false, carry := none, idle := .off, state := st.finishJob.state, causes := st.finishJob.causes } := by
  rcases st.finishJob_cases with ⟨_, h⟩ | ⟨_, _, h⟩ | ⟨_, _, h⟩
  · rw [h]
  · rw [h]
  · rw [h]
    rfl

/-- With a page in the queue END JOB drains, or stays STOPPED, and DRAINED is not raised. -/
theorem Station.finishJob_of_queue (hq : st.queue ≠ []) :
    st.finishJob.causes = st.causes ∧ (st.finishJob.state = .stopped ↔ st.state = .stopped) ∧
    (st.finishJob.state = .stopped ∨ st.finishJob.state = .draining) := by
  have hh : st.holdings ≠ 0 := fun h => hq (List.eq_nil_of_length_eq_zero (Nat.eq_zero_of_add_eq_zero_left h))
  rcases st.finishJob_cases with ⟨hs, h⟩ | ⟨hs, _, h⟩ | ⟨_, h0, _⟩
  · rw [h]
    exact ⟨rfl, Iff.rfl, .inl hs⟩
  · rw [h]
    exact ⟨rfl, ⟨fun hd => (nomatch hd), fun hd => absurd hd hs⟩, .inr rfl⟩
  · exact absurd h0 hh

/-- A station that is not STOPPED and owns no slot has drained at END JOB. -/
theorem Station.finishJob_of_empty (hs : st.state ≠ .stopped) (ho : st.openPage = none) (hq : st.queue = []) :
    st.finishJob.causes = { st.causes with drained := true } ∧
    st.finishJob.state = if st.holds.isEmpty then .ready else .held := by
  have hh : st.holdings = 0 := by simp [Station.holdings, ho, hq]
  rcases st.finishJob_cases with ⟨h, _⟩ | ⟨_, h, _⟩ | ⟨_, _, h⟩
  · exact absurd h hs
  · exact absurd hh h
  · rw [h]
    exact ⟨rfl, rfl⟩

theorem Station.endJob_held (free : Bool) (h : st.state = .held) : st.endJob t free = (st, .retry) := by
  simp only [Station.endJob, h]

theorem Station.endJob_elsewhere (free : Bool) (hr : st.state ≠ .ready) (hh : st.state ≠ .held) :
    st.endJob t free = (st, .refused .wrongState) := by
  unfold Station.endJob
  split
  · exact absurd ‹_› hr
  · exact absurd ‹_› hh
  · rfl

theorem Station.endJob_noSlot (h : st.state = .ready) (hs : st.hasStrikes = true) (ho : st.openPage = none) :
    st.endJob t false = (st, .retry) := by
  simp only [Station.endJob, h, hs, ho]
  rfl

theorem Station.endJob_ready {free : Bool} (h : st.state = .ready)
    (hf : st.hasStrikes = true → st.openPage = none → free = true) :
    st.endJob t free = ((endJobWork t st).st.finishJob, Answer.ofWork (endJobWork t st)) := by
  have hn : ¬ (st.hasStrikes && st.openPage.isNone && !free) = true := by
    simp only [Bool.and_eq_true, Option.isNone_iff_eq_none, Bool.not_eq_true', not_and, Bool.not_eq_false, and_imp]
    exact hf
  simp only [Station.endJob, h]
  exact if_neg hn

/-- Without a page or strikes the work of END JOB is none (R66). -/
theorem endJobWork_of_nothing (h : (st.openPage.isSome || st.hasStrikes) = false) :
    endJobWork t st = ⟨{ st with strikes := emptyLine }, false, false⟩ := by
  obtain ⟨ho, hs⟩ := Bool.or_eq_false_iff.mp h
  have hc := commit_of_no_strikes (t := t) (w := ⟨st, false, false⟩) hs
  exact (endJobWork_of_no_page (by rw [hc]; exact Option.isNone_iff_eq_none.mp (Option.isSome_eq_false_iff.mp ho))).trans hc

/-- What END JOB's work leaves and counts, with or without a page (R9, R41, R66). -/
theorem endJobWork_counts (t : Tools) (st : Station) :
    let page := st.openPage.isSome || st.hasStrikes
    let w := endJobWork t st
    w.closed = page ∧ w.st.reports = st.reports ∧
    w.st.counters.lines = (if st.hasStrikes then st.counters.lines + 1 else st.counters.lines) ∧
    w.st.counters.imaged = st.counters.imaged ∧
    w.st.counters.closed = (if page then st.counters.closed + 1 else st.counters.closed) ∧
    w.st.page = if page then nextPage st.page else st.page := by
  intro page w
  have himaged : w.st.counters.imaged = st.counters.imaged := (lineStable_imaged t st.counters.imaged).endJobWork rfl
  cases hp : page with
  | true =>
    obtain ⟨p, ho, _⟩ := commit_leaves_page (t := t) hp
    obtain ⟨q, line, mark, _, _, _, _, _, _, he⟩ := endJobWork_of_page ho
    obtain ⟨hc, hg⟩ := formEnd_counts t (commit t ⟨st, false, false⟩)
    have hr := formEnd_reports (t := t) ho
    refine ⟨?_, ?_, ?_, himaged, ?_, ?_⟩ <;> dsimp only [w] <;> rw [he]
    · rfl
    · exact hr.trans (commit_reports t _)
    · exact (congrArg Counters.lines hc).trans (commit_lines st)
    · exact (congrArg Counters.closed hc).trans (congrArg (· + 1) (commit_pagesClosed t _))
    · exact hg.trans (congrArg nextPage (commit_page t _))
  | false =>
    have he : w = ⟨{ st with strikes := emptyLine }, false, false⟩ := endJobWork_of_nothing hp
    rw [he, (Bool.or_eq_false_iff.mp hp).2]
    exact ⟨rfl, rfl, rfl, rfl, rfl, rfl⟩

/-- END JOB with a page or strikes queues one page more, and leaves what the form end leaves (R9, R66). -/
theorem endJob_with_page (h : (st.openPage.isSome || st.hasStrikes) = true) :
    let u := (endJobWork t st).st.finishJob
    let w := formEnd t (commit t ⟨st, false, false⟩)
    ∃ q : Page, u.queue = st.queue ++ [q] ∧ w.st.queue = st.queue ++ [{ q with endJob := false }] ∧
      q.state = .waiting ∧ q.endJob = true ∧
      (∀ p, st.openPage = some p → q.job = p.job ∧ q.page = p.page) ∧
      (st.openPage = none → q.job = st.job ∧ q.page = st.page) ∧
      (∃ new, q.lines = (st.openPage.map Page.lines).getD [] ++ new ∧
        new.length ≤ (if st.hasStrikes then 1 else 0) ∧ ∀ x ∈ new, x.line = st.line) ∧
      u.counters.listings = (commit t ⟨st, false, false⟩).st.counters.listings ∧
      (endJobWork t st).noted = w.noted ∧ u.record = w.st.record ∧ u.holds = w.st.holds ∧ u.causes = w.st.causes ∧
      u.stopCode = w.st.stopCode ∧ (u.state = .stopped ↔ w.st.state = .stopped) := by
  intro u w
  obtain ⟨p, ho, hpj, hpg, hpl⟩ := commit_leaves_page (t := t) h
  obtain ⟨q, line, mark, hq, hwait, hend, hj, hg, hl, he⟩ := endJobWork_of_page ho
  have hqueue : (endJobWork t st).st.queue ≠ [] := by rw [he]; exact List.append_ne_nil_of_right_ne_nil _ (by simp)
  obtain ⟨hcauses, hstate, _⟩ := Station.finishJob_of_queue hqueue
  have hu : u = _ := Station.finishJob_eq _
  have hlist : w.st.counters.listings = (commit t ⟨st, false, false⟩).st.counters.listings :=
    (congrArg Counters.listings (formEnd_counts t (commit t ⟨st, false, false⟩)).1).trans rfl
  refine ⟨q, ?_, hq, hwait, hend, fun o hp => ?_, fun hp => ?_, hl ▸ hpl, ?_, ?_, ?_, ?_, ?_, ?_, ?_⟩
  · rw [hu, he]
  · rw [hp] at hpj hpg
    exact ⟨hj.trans hpj, hg.trans hpg⟩
  · rw [hp] at hpj hpg
    exact ⟨hj.trans hpj, hg.trans hpg⟩
  · rw [hu, he]
    exact hlist
  · rw [he]
  · rw [hu, he]
  · rw [hu, he]
  · rw [hcauses, he]
  · rw [hu, he]
  · rw [hstate, he]

/-- Settles O27: the parts of END JOB by whether it has a page to close. -/
theorem endJobFinishesTheJob : Obligations.EndJobFinishesTheJob := by
  intro s h p ha hp st page tools
  have hexec : ∀ {u a}, Station.endJob tools (s.canOpen h.station) st = (u, a) →
      exec (.endJob h p) s = .next ((s.setStation h.station u).owe (leadOf h 0x09) a) := fun he =>
    exec_alone rfl ha hp (orderStation_endJob hp) fun _ _ _ _ _ => he
  have hsame : ∀ {a}, Station.endJob tools (s.canOpen h.station) st = (st, a) →
      exec (.endJob h p) s = .next (s.owe (leadOf h 0x09) a) := fun he =>
    exec_alone_same rfl ha hp (orderStation_endJob hp) fun _ _ _ _ _ => he
  refine ⟨fun hh => hsame (st.endJob_held _ hh), fun hr hh => hsame (st.endJob_elsewhere _ hr hh),
    fun hr hs ho hf => hsame (by rw [hf]; exact st.endJob_noSlot hr hs ho), fun hr hf => ?_⟩
  have hcomes : (endJobWork tools st).Comes tools st := Work.Comes.endJobWork hr
  obtain ⟨hclosed, hreports, hlines, himaged, hcount, hpage⟩ := endJobWork_counts tools st
  have hset := endJobWork_settings tools st
  simp only [Station.settings, Prod.mk.injEq] at hset
  obtain ⟨hsel, hjob, hexp, hquota, htimer, hmatch⟩ := hset
  obtain ⟨ho, hs⟩ := endJobWork_not_busy tools st
  have hstrikes : ∀ k : Fin 132, (endJobWork tools st).st.strikes[k] = ⟨[], false⟩ := by
    rw [hs]
    exact fun k => Vector.getElem_replicate _
  have hu := (endJobWork tools st).st.finishJob_eq
  refine ⟨(endJobWork tools st).st.finishJob, (endJobWork tools st).noted, ?_, ?_⟩
  · rw [hexec (st.endJob_ready hr hf), Answer.ofWork, hclosed]
  refine ⟨by rw [hu], by rw [hu], by rw [hu], by rw [hu], by rwa [hu], by rwa [hu], by rwa [hu], by rwa [hu], by rwa [hu],
    by rwa [hu], by rwa [hu], by rwa [hu], by rwa [hu], by rwa [hu], by rwa [hu], by rwa [hu], by rwa [hu],
    fun hn => ?_, endJob_with_page, fun hn => ?_, fun hc => ?_, ?_⟩
  · rw [hu, endJobWork_of_nothing hn]
    exact ⟨rfl, rfl⟩
  · refine ⟨by rw [endJobWork_of_nothing hn], by rw [hu, endJobWork_of_nothing hn], ?_⟩
    have hrun : (endJobWork tools st).st.state ≠ .stopped := by simp [endJobWork_of_nothing hn, hr]
    by_cases hq : st.queue = []
    · rw [(Station.finishJob_of_empty hrun ho (by rwa [endJobWork_of_nothing hn])).1, if_pos hq, endJobWork_of_nothing hn]
    · rw [(Station.finishJob_of_queue (by rwa [endJobWork_of_nothing hn])).1, if_neg hq, endJobWork_of_nothing hn]
  · obtain ⟨hready, hholds⟩ := hcomes.calm hc
    refine ⟨?_, by rwa [hu]⟩
    rcases (endJobWork tools st).st.finishJob_cases with ⟨h, _⟩ | ⟨_, _, h⟩ | ⟨_, _, h⟩
    · rw [hready] at h
      cases h
    · rw [h]
      simp
    · rw [h, Station.reachReady_eq]
      dsimp only
      split <;> simp
  · by_cases hstop : (endJobWork tools st).st.state = .stopped
    · obtain ⟨hn, hcs, hcode⟩ := hcomes.stopped hstop
      have hpage' : page = true := by
        by_contra hf
        rw [endJobWork_of_nothing (Bool.eq_false_iff.mpr hf)] at hn
        cases hn
      obtain ⟨q, hq, _⟩ := endJob_with_page (t := tools) hpage'
      have hne : (endJobWork tools st).st.queue ≠ [] := by
        rw [hu] at hq
        exact hq ▸ List.append_ne_nil_of_right_ne_nil _ (by simp)
      obtain ⟨hcauses, hstate, _⟩ := Station.finishJob_of_queue hne
      exact .inl ⟨hstate.mpr hstop, hn, hpage', hcauses ▸ hcs, by rwa [hu]⟩
    · have hcode := hcomes.running hstop
      by_cases hq : (endJobWork tools st).st.queue = []
      · obtain ⟨hcauses, hstate⟩ := Station.finishJob_of_empty hstop ho hq
        refine .inr (.inr ⟨by rwa [hu], by rw [hcauses], by rwa [hu], ?_⟩)
        rw [hstate, hu]
      · obtain ⟨_, hstate, hone⟩ := Station.finishJob_of_queue hq
        exact .inr (.inl ⟨by rwa [hu], hone.resolve_left (hstop ∘ hstate.mp), by rwa [hu]⟩)

end Sys2Proof.Machine
end

section
/-! SUPPORT. The print bytes of a PRINT (R49 to R54): the strikes recorded byte by byte are the whole new line with the
conditions in a list. -/

namespace Sys2Proof.Machine

variable {t : Tools} {w : Work}

/-! ## Raisings and what they do not see -/

/-- The pending line replaced. -/
def Work.struck (v : Vector Position 132) (w : Work) : Work := { w with st := { w.st with strikes := v } }

/-- The carriage at line `n`, the overflow mark at `b`. -/
def Work.atLine (n : Nat) (b : Bool) (w : Work) : Work := { w with st := { w.st with line := n, overflow := b } }

/-- The conditions of a list raised one after another. -/
def Work.raiseAll (table : Dispositions) (es : List CondEntry) (w : Work) : Work := es.foldl (fun x e => x.raise table e) w

/-- A raising neither reads nor writes the pending line, the carriage line and the mark. -/
theorem Station.raise_placed (table : Dispositions) (e : CondEntry) (v : Vector Position 132) (n : Nat) (b : Bool)
    (st : Station) : Station.raise table e { st with strikes := v, line := n, overflow := b } =
      { st.raise table e with strikes := v, line := n, overflow := b } := by
  by_cases hs : st.state = .stopped
  · have h : st.raise table e = st.counted e.kind := if_pos hs
    rw [h]
    exact if_pos hs
  simp only [Station.raise, hs, if_false]
  cases table[e.kind.number] with
  | ignore => rfl
  | note => rfl
  | hold =>
    by_cases hc : st.holds.condition = true
    · simp only [Station.applyDisposition, Station.counted, hc, if_true]
      rfl
    · by_cases hr : st.state = .ready <;>
        simp [Station.applyDisposition, Station.counted, Station.addHolds, Station.noteEntry, hc, hr]
  | stop => rfl

theorem Station.raise_struck (table : Dispositions) (e : CondEntry) (v : Vector Position 132) (st : Station) :
    Station.raise table e { st with strikes := v } = { st.raise table e with strikes := v } :=
  (st.raise_placed table e v st.line st.overflow).trans (by simp only [Station.raise_line, Station.raise_overflow])

theorem Station.raise_atLine (table : Dispositions) (e : CondEntry) (n : Nat) (b : Bool) (st : Station) :
    Station.raise table e { st with line := n, overflow := b } = { st.raise table e with line := n, overflow := b } :=
  (st.raise_placed table e st.strikes n b).trans (by simp only [Station.raise_strikes])

theorem Work.raise_struck (table : Dispositions) (e : CondEntry) (v : Vector Position 132) (w : Work) :
    (w.struck v).raise table e = (w.raise table e).struck v :=
  congrArg (fun st => (⟨st, w.noted || w.st.raiseNotes table e.kind, w.closed⟩ : Work)) (w.st.raise_struck table e v)

theorem Work.raise_atLine (table : Dispositions) (e : CondEntry) (n : Nat) (b : Bool) (w : Work) :
    (w.atLine n b).raise table e = (w.raise table e).atLine n b :=
  congrArg (fun st => (⟨st, w.noted || w.st.raiseNotes table e.kind, w.closed⟩ : Work)) (w.st.raise_atLine table e n b)

theorem Work.struck_struck (u v : Vector Position 132) (w : Work) : (w.struck u).struck v = w.struck v := rfl

theorem Work.raiseAll_struck (table : Dispositions) (es : List CondEntry) (v : Vector Position 132) (w : Work) :
    (w.struck v).raiseAll table es = (w.raiseAll table es).struck v := by
  induction es generalizing w with
  | nil => rfl
  | cons e es ih => exact (congrArg (Work.raiseAll table es) (w.raise_struck table e v)).trans (ih _)

theorem Work.raiseAll_append (table : Dispositions) (es fs : List CondEntry) (w : Work) :
    w.raiseAll table (es ++ fs) = (w.raiseAll table es).raiseAll table fs :=
  List.foldl_append

/-- What raising a condition leaves alone, raising a list of them leaves alone. -/
theorem Work.raiseAll_proj {α : Type} {table : Dispositions} {f : Station → α}
    (hf : ∀ e st, f (Station.raise table e st) = f st)
    (es : List CondEntry) (w : Work) : f (w.raiseAll table es).st = f w.st := by
  induction es generalizing w with
  | nil => rfl
  | cons e es ih => exact (ih _).trans (hf e w.st)

/-! ## The strikes of the bytes, one byte after another (R53, R54) -/

theorem DrumEntry.strike_eq (x : DrumEntry) : strikesOf (some x) = x.strike.toList := by
  cases x <;> rfl

/-- The positions at which the bytes first drop a strike, ascending (R54). -/
def firstDrops (drum : DrumTable) (bytes : List Byte) (old : Vector Position 132) : List (Fin 132) :=
  (List.finRange 132).filter fun p =>
    strikesOf (bytes[p.val]?.map (lookDrum drum)) ≠ [] ∧ 3 ≤ old[p].strikes.length ∧ old[p].excess = false

/-- The entry of EXCESS STRIKE at a position. -/
def excessEntry (st : Station) (p : Fin 132) : CondEntry := ⟨.excessStrike, st.page, st.line, some (p.val + 1), none⟩

/-- The strikes a further byte brings to each position, its own position apart. -/
theorem strikesOf_append_ne (drum : DrumTable) (bytes : List Byte) (b : Byte) {n : Nat} (h : n ≠ bytes.length) :
    strikesOf ((bytes ++ [b])[n]?.map (lookDrum drum)) = strikesOf (bytes[n]?.map (lookDrum drum)) := by
  rcases Nat.lt_or_gt_of_ne h with hn | hn
  · rw [List.getElem?_append_left hn]
  · rw [List.getElem?_eq_none (by simp; omega), List.getElem?_eq_none (by omega)]

theorem strikesOf_append_length (drum : DrumTable) (bytes : List Byte) (b : Byte) :
    strikesOf ((bytes ++ [b])[bytes.length]?.map (lookDrum drum)) = (lookDrum drum b).strike.toList := by
  rw [List.getElem?_append_right (Nat.le_refl _)]
  simp [DrumEntry.strike_eq]

theorem strikesOf_length (drum : DrumTable) (bytes : List Byte) :
    strikesOf (bytes[bytes.length]?.map (lookDrum drum)) = [] := by
  rw [List.getElem?_eq_none (Nat.le_refl _)]
  rfl

/-- The new line of one byte more differs at that byte's position alone. -/
theorem struckLine_append (drum : DrumTable) (bytes : List Byte) (b : Byte) (old : Vector Position 132)
    (h : bytes.length < 132) : struckLine drum (bytes ++ [b]) old = (struckLine drum bytes old).set bytes.length
      (if (lookDrum drum b).strike.toList = [] then old[bytes.length]
        else if old[bytes.length].strikes.length < 3 then
          { old[bytes.length] with strikes := old[bytes.length].strikes ++ (lookDrum drum b).strike.toList }
        else { old[bytes.length] with excess := true }) := by
  refine Vector.ext fun q hq => ?_
  rw [Vector.getElem_set]
  by_cases hn : bytes.length = q
  · subst hn
    simp only [struckLine, Vector.getElem_ofFn, strikesOf_append_length, if_true]
    rfl
  · simp only [struckLine, Vector.getElem_ofFn, strikesOf_append_ne drum bytes b (Ne.symm hn), if_neg hn]

/-- The pending line of fewer bytes holds at the next position what stood there. -/
theorem struckLine_next (drum : DrumTable) (bytes : List Byte) (old : Vector Position 132) (h : bytes.length < 132) :
    (struckLine drum bytes old)[bytes.length] = old[bytes.length] := by
  simp only [struckLine, Vector.getElem_ofFn, strikesOf_length, if_true]
  rfl

theorem firstDrops_lt {drum : DrumTable} {bytes : List Byte} {old : Vector Position 132} {p : Fin 132}
    (hp : p ∈ firstDrops drum bytes old) : p.val < bytes.length := by
  by_contra hn
  have hs := (of_decide_eq_true (List.mem_filter.mp hp).2).1
  rw [List.getElem?_eq_none (by omega)] at hs
  exact hs rfl

/-- A byte more drops a strike at its own position, or nowhere. -/
theorem firstDrops_append (drum : DrumTable) (bytes : List Byte) (b : Byte) (old : Vector Position 132)
    (h : bytes.length < 132) : firstDrops drum (bytes ++ [b]) old = firstDrops drum bytes old ++
      if (lookDrum drum b).strike.toList ≠ [] ∧ 3 ≤ old[bytes.length].strikes.length ∧ old[bytes.length].excess = false
        then [⟨bytes.length, h⟩] else [] := by
  refine List.Pairwise.eq_of_mem_iff (r := (· < ·)) ?_ ?_ fun p => ?_
  · exact (List.sortedLT_finRange 132).pairwise.filter _
  · refine List.pairwise_append.mpr ⟨(List.sortedLT_finRange 132).pairwise.filter _, ?_, fun p hp q hq => ?_⟩
    · split <;> simp
    · split at hq
      · rw [List.mem_singleton.mp hq]
        exact firstDrops_lt hp
      · cases hq
  · rw [List.mem_append]
    by_cases hn : p.val = bytes.length
    · obtain rfl : p = ⟨bytes.length, h⟩ := Fin.ext hn
      have hold : (⟨bytes.length, h⟩ : Fin 132) ∉ firstDrops drum bytes old := fun hp => Nat.lt_irrefl _ (firstDrops_lt hp)
      simp only [hold, false_or]
      simp only [firstDrops, List.mem_filter, List.mem_finRange, true_and, decide_eq_true_eq, strikesOf_append_length]
      split <;> simp_all
    · have hnew : p ∉ (if (lookDrum drum b).strike.toList ≠ [] ∧ 3 ≤ old[bytes.length].strikes.length ∧
          old[bytes.length].excess = false then [(⟨bytes.length, h⟩ : Fin 132)] else []) := by
        split <;> simp [Fin.ext_iff, hn]
      simp only [hnew, or_false]
      simp only [firstDrops, List.mem_filter, strikesOf_append_ne drum bytes b hn]

/-- The record of one byte at position `p` (R53). -/
def strikeByte (t : Tools) (p : Nat) (b : Byte) (w : Work) : Work :=
  match (lookDrum t.drum b).strike with
  | none => w
  | some k => addStrike t p k w

theorem strikeFrom_append (p : Nat) (bytes : List Byte) (b : Byte) (w : Work) :
    strikeFrom t p (bytes ++ [b]) w = strikeByte t (p + bytes.length) b (strikeFrom t p bytes w) := by
  induction bytes generalizing p w with
  | nil => rfl
  | cons c cs ih =>
    refine (ih (p + 1) _).trans ?_
    rw [List.length_cons, Nat.add_right_comm, Nat.add_assoc]
    rfl

/-- One byte at the position `n` of the line, which stands as in `old`: the strike added, dropped with EXCESS STRIKE, or dropped
unseen (R54). -/
theorem strikeByte_eq (b : Byte) {n : Nat} (h : n < 132) {c : Position} (hc : w.st.strikes[n] = c) :
    strikeByte t (n + 1) b w =
      (w.struck (w.st.strikes.set n
        (if (lookDrum t.drum b).strike.toList = [] then c
          else if c.strikes.length < 3 then { c with strikes := c.strikes ++ (lookDrum t.drum b).strike.toList }
          else { c with excess := true }))).raiseAll t.table
      ((if (lookDrum t.drum b).strike.toList ≠ [] ∧ 3 ≤ c.strikes.length ∧ c.excess = false
        then [⟨n, h⟩] else []).map (excessEntry w.st)) := by
  have hget : w.st.strikes[n + 1 - 1]? = some c := by rw [Nat.add_sub_cancel, Vector.getElem?_eq_getElem h, hc]
  have hset : ∀ d, w.st.strikes.setIfInBounds (n + 1 - 1) d = w.st.strikes.set n d := fun d => by
    simp [Vector.setIfInBounds, Vector.set, Array.setIfInBounds, h]
  have hself : w.struck (w.st.strikes.set n c) = w := by
    rw [← hc, Vector.set_getElem_self]
    rfl
  unfold strikeByte
  cases (lookDrum t.drum b).strike with
  | none => simp [hself, Work.raiseAll]
  | some k =>
    have hk : (some k).toList = [k] := rfl
    simp only [addStrike, hget, hset, hk]
    by_cases hl : c.strikes.length < 3
    · have h3 : ¬ 3 ≤ c.strikes.length := Nat.not_le.mpr hl
      simp [hl, h3, Config.maxStrikes, Work.raiseAll, Work.struck]
    · have h3 : 3 ≤ c.strikes.length := Nat.not_lt.mp hl
      cases hx : c.excess with
      | true =>
        have hcx : { c with excess := true } = c := by rw [← hx]
        simp [hl, h3, hcx, hself, Config.maxStrikes, Work.raiseAll]
      | false =>
        simp [hl, h3, Config.maxStrikes, Work.raiseAll, Work.struck, excessEntry, Station.entry]

/-- The bytes recorded one after another are the new line with EXCESS STRIKE raised at each first drop (R53, R54). -/
theorem strikeFrom_eq (bytes : List Byte) (h : bytes.length ≤ 132) (w : Work) : strikeFrom t 1 bytes w =
    (w.struck (struckLine t.drum bytes w.st.strikes)).raiseAll t.table
      ((firstDrops t.drum bytes w.st.strikes).map (excessEntry w.st)) := by
  induction bytes using List.reverseRecOn with
  | nil =>
    have hs : struckLine t.drum [] w.st.strikes = w.st.strikes := Vector.ext fun q hq => by
      simp only [struckLine, Vector.getElem_ofFn]
      rfl
    have hd : firstDrops t.drum [] w.st.strikes = [] := List.eq_nil_iff_forall_not_mem.mpr fun p hp =>
      absurd (firstDrops_lt hp) (Nat.not_lt_zero _)
    rw [hs, hd]
    rfl
  | append_singleton bytes b ih =>
    have hlt : bytes.length < 132 := by simpa using h
    have hx := ih hlt.le
    generalize hw : (w.struck (struckLine t.drum bytes w.st.strikes)).raiseAll t.table
      ((firstDrops t.drum bytes w.st.strikes).map (excessEntry w.st)) = x at hx
    have hproj : ∀ {α : Type} (f : Station → α), (∀ e st, f (Station.raise t.table e st) = f st) →
        f x.st = f { w.st with strikes := struckLine t.drum bytes w.st.strikes } := fun f hf => by
      rw [← hw]
      exact Work.raiseAll_proj hf _ _
    have hstrikes : x.st.strikes = struckLine t.drum bytes w.st.strikes :=
      hproj Station.strikes fun e st => st.raise_strikes t.table e
    have hentry : excessEntry x.st = excessEntry w.st := by
      have hpage : x.st.page = w.st.page := hproj Station.page fun e st => st.raise_page t.table e
      have hline : x.st.line = w.st.line := hproj Station.line fun e st => st.raise_line t.table e
      exact funext fun p => by rw [excessEntry, hpage, hline, ← excessEntry]
    have hc : x.st.strikes[bytes.length] = w.st.strikes[bytes.length] := by
      exact (congrArg (fun v : Vector Position 132 => v[bytes.length]) hstrikes).trans (struckLine_next _ _ _ hlt)
    rw [strikeFrom_append, hx, Nat.add_comm, strikeByte_eq b hlt hc, hentry, hstrikes, ← struckLine_append _ _ _ _ hlt,
      firstDrops_append _ _ _ _ hlt, List.map_append, Work.raiseAll_append, ← hw, ← Work.raiseAll_struck, Work.struck_struck]

/-! ## The conditions of the bytes (R50, R53) -/

theorem lowestWhere_eq (d : DrumTable) (kind : DrumEntry → Bool) (p : Nat) (bytes : List Byte) :
    lowestWhere d kind p bytes = (bytes.findIdx? fun b => kind (lookDrum d b)).map (· + p) := by
  induction bytes generalizing p with
  | nil => rfl
  | cons b bs ih =>
    rw [lowestWhere, List.findIdx?_cons]
    split
    · simp
    · rw [ih (p + 1), Option.map_map]
      exact congrArg (fun f => Option.map f _) (funext fun n => Nat.add_right_comm n p 1 ▸ rfl)

/-- Only the first 132 bytes strike. -/
theorem struckLine_take (drum : DrumTable) (bytes : List Byte) (old : Vector Position 132) :
    struckLine drum (bytes.take 132) old = struckLine drum bytes old := by
  refine Vector.ext fun q hq => ?_
  simp only [struckLine, Vector.getElem_ofFn, List.getElem?_take_of_lt hq]

theorem firstDrops_take (drum : DrumTable) (bytes : List Byte) (old : Vector Position 132) :
    firstDrops drum (bytes.take 132) old = firstDrops drum bytes old :=
  List.filter_congr fun p _ => by rw [List.getElem?_take_of_lt p.isLt]

/-- The entry of a condition of the print bytes, at the station's page and line. -/
def byteEntry (st : Station) (k : Condition) (p : Nat) : CondEntry := ⟨k, st.page, st.line, some (p + 1), none⟩

/-- A raising keeps what the entries of print bytes tell, so they are the same before and after it. -/
structure Work.SameEntries (w x : Work) : Prop where
  page : x.st.page = w.st.page
  line : x.st.line = w.st.line

theorem Work.SameEntries.trans {x y : Work} (h : w.SameEntries x) (h' : x.SameEntries y) : w.SameEntries y :=
  ⟨h'.page.trans h.page, h'.line.trans h.line⟩

theorem Work.SameEntries.struck {x : Work} (h : w.SameEntries x) (v : Vector Position 132) : w.SameEntries (x.struck v) :=
  ⟨h.page, h.line⟩

theorem Work.raiseAll_sameEntries (table : Dispositions) (es : List CondEntry) (w : Work) :
    w.SameEntries (w.raiseAll table es) :=
  ⟨raiseAll_proj (f := Station.page) (fun e st => st.raise_page table e) es w,
    raiseAll_proj (f := Station.line) (fun e st => st.raise_line table e) es w⟩

theorem raiseAt_eq {x : Work} (h : w.SameEntries x) (k : Condition) (o : Option Nat) :
    raiseAt t k (o.map (· + 1)) x = x.raiseAll t.table (o.toList.map (byteEntry w.st k)) := by
  obtain ⟨hp, hl⟩ := h
  cases o with
  | none => rfl
  | some p => simp [raiseAt, Work.raiseAll, byteEntry, Station.entry, hp, hl]

/-- The conditions of print bytes, their kinds of drum entry named (R53). -/
theorem strikeEntries_eq (drum : DrumTable) (bytes : List Byte) (st : Station) : strikeEntries drum bytes st =
    ((if 132 < bytes.length then [st.entry .lineTooLong none none] else []) ++
      (firstDrops drum bytes st.strikes).map (excessEntry st) ++
      ((bytes.take 132).findIdx? fun b => (lookDrum drum b).isAbsent).toList.map (byteEntry st .notOnDrum)) ++
      ((bytes.take 132).findIdx? fun b => (lookDrum drum b).isSubstitute).toList.map (byteEntry st .substituted) := by
  have hkind : ∀ (k : Condition) (f g : DrumEntry → Bool), (∀ x, f x = g x) →
      ((bytes.take 132).findIdx? fun b => f (lookDrum drum b)).toList.map (byteEntry st k) =
        ((bytes.take 132).findIdx? fun b => g (lookDrum drum b)).toList.map (byteEntry st k) := fun k f g h => by
    rw [funext h]
  exact congrArg₂ (· ++ ·) (congrArg₂ (· ++ ·) rfl (hkind .notOnDrum (· == .absent) _ fun x => by cases x <;> rfl))
    (hkind .substituted (fun x => match x with | .substitute _ => true | _ => false) _ fun x => by cases x <;> rfl)

/-- Recording print bytes is what `Work.recorded` says: the new line, and the conditions in their order (R53). -/
theorem recordStrikes_eq (bytes : List Byte) (w : Work) : recordStrikes t bytes w = w.recorded t bytes := by
  have hrec : w.recorded t bytes = (w.struck (struckLine t.drum bytes w.st.strikes)).raiseAll t.table
    (strikeEntries t.drum bytes w.st) := rfl
  rw [hrec, strikeEntries_eq, Work.raiseAll_append, Work.raiseAll_append, Work.raiseAll_append]
  unfold recordStrikes
  have hlong : (if Config.positions < bytes.length then w.raise t.table (w.st.entry .lineTooLong none none) else w) =
      w.raiseAll t.table (if 132 < bytes.length then [w.st.entry .lineTooLong none none] else []) := by
    by_cases hb : 132 < bytes.length <;> simp [hb, Config.positions, Work.raiseAll]
  have hdrops : ∀ {x : Work}, w.SameEntries x → x.st.strikes = w.st.strikes → strikeFrom t 1 (bytes.take 132) x =
      (x.struck (struckLine t.drum bytes w.st.strikes)).raiseAll t.table
        ((firstDrops t.drum bytes w.st.strikes).map (excessEntry w.st)) := fun {x} hsame hv => by
    obtain ⟨hp, hl⟩ := hsame
    have he : excessEntry x.st = excessEntry w.st := funext fun p => by rw [excessEntry, hp, hl, ← excessEntry]
    rw [strikeFrom_eq _ (List.length_take_le _ _), hv, struckLine_take, firstDrops_take, he]
  have htake : bytes.take Config.positions = bytes.take 132 := rfl
  simp only [lowestWhere_eq, hlong, htake]
  generalize hx : w.raiseAll t.table (if 132 < bytes.length then [w.st.entry .lineTooLong none none] else []) = x
  have hsame : w.SameEntries x := hx ▸ Work.raiseAll_sameEntries _ _ _
  have hv : x.st.strikes = w.st.strikes :=
    hx ▸ Work.raiseAll_proj (f := Station.strikes) (fun e st => st.raise_strikes t.table e) _ _
  have hstruck : w.SameEntries (x.struck (struckLine t.drum bytes w.st.strikes)) := hsame.struck _
  have hdropped := hstruck.trans (Work.raiseAll_sameEntries t.table
    ((firstDrops t.drum bytes w.st.strikes).map (excessEntry w.st)) _)
  rw [hdrops hsame hv, Work.raiseAll_struck _ (if 132 < bytes.length then _ else _), hx]
  generalize (x.struck (struckLine t.drum bytes w.st.strikes)).raiseAll t.table
    ((firstDrops t.drum bytes w.st.strikes).map (excessEntry w.st)) = y at hdropped ⊢
  rw [raiseAt_eq hdropped, raiseAt_eq (hdropped.trans (Work.raiseAll_sameEntries _ _ _))]

end Sys2Proof.Machine
end

section
/-! SUPPORT. The carriage of a taken line order (R28 to R42): a motion as form ends and a last line, and what form ends count
(R41, R43). -/

namespace Sys2Proof.Machine

variable {t : Tools} {w : Work}

/-! ## A form end does not see the line (R38 to R40) -/

theorem seamChain_atLine (n : Nat) (b : Bool) (ws : List Window) (cs : List ColumnRecord) (i : Nat) (k : Option Key)
    (w : Work) : seamChain t i ws cs k (w.atLine n b) =
      ((seamChain t i ws cs k w).1, (seamChain t i ws cs k w).2.atLine n b) := by
  induction ws generalizing cs i k w with
  | nil => rfl
  | cons x ws ih =>
    cases cs with
    | nil => rfl
    | cons c cs =>
      have hraise : seamRaise t i c (w.atLine n b) = (seamRaise t i c w).atLine n b := Work.raise_atLine _ _ _ _ _
      simp only [seamChain]
      split
      · split
        · rw [hraise, ih]
        · rw [ih]
      · rw [ih]

theorem completePage_atLine (n : Nat) (b : Bool) (p : Page) (w : Work) : completePage t p (w.atLine n b) =
    ((completePage t p w).1, (completePage t p w).2.atLine n b) := by
  unfold completePage
  split
  · rfl
  · have h := seamChain_atLine (t := t) n b t.layout.windows p.columns 0 w.st.carry w
    have hc : (w.atLine n b).st.carry = w.st.carry := rfl
    simp only [hc, h]
    rfl

/-- A form end goes to line 1 with the mark clear from wherever the carriage stands. -/
theorem formEnd_atLine (n : Nat) (b : Bool) (w : Work) : formEnd t (w.atLine n b) = formEnd t w := by
  have ho : (w.atLine n b).st.openPage = w.st.openPage := rfl
  cases hp : w.st.openPage with
  | none =>
    simp only [formEnd, ho, hp]
    rfl
  | some p =>
    simp only [formEnd, ho, hp, closePage, completePage_atLine]
    rfl

theorem Work.atLine_self (w : Work) : w.atLine w.st.line w.st.overflow = w := rfl

theorem atLine_formEnd (t : Tools) (w : Work) : (formEnd t w).atLine 1 false = formEnd t w := rfl

/-! ## The course of a SPACE (R34, R35) -/

/-- How far a motion has come: the form ends crossed, the carriage line and the overflow mark. -/
structure Course where
  ends : Nat
  line : Nat
  mark : Bool

/-- The line holds the tape's overflow channel. -/
def Tape.overflows (x : Tape) (n : Nat) : Bool := x.holdsChannel n x.overflow

/-- One line further, over the foot to line 1 (R34, R35). -/
def Course.next (x : Tape) (c : Course) : Course :=
  if c.line < x.formLength then ⟨c.ends, c.line + 1, c.mark || x.overflows (c.line + 1)⟩
  else ⟨c.ends + 1, 1, x.overflows 1⟩

/-- The work `w` taken through a course. -/
def Work.along (t : Tools) (c : Course) (w : Work) : Work := ((formEnd t)^[c.ends] w).atLine c.line c.mark

theorem spaceStep_along (c : Course) (w : Work) : spaceStep t (w.along t c) = w.along t (c.next t.tape) := by
  have hl : (w.along t c).st.line = c.line := rfl
  unfold spaceStep
  rw [hl]
  by_cases h : c.line < t.tape.formLength
  · have hn : c.next t.tape = ⟨c.ends, c.line + 1, c.mark || t.tape.overflows (c.line + 1)⟩ := if_pos h
    rw [if_pos h, hn, Tape.overflows]
    dsimp only [Work.along, Work.atLine]
    cases t.tape.holdsChannel (c.line + 1) t.tape.overflow <;> simp
  · have hn : c.next t.tape = ⟨c.ends + 1, 1, t.tape.overflows 1⟩ := if_neg h
    have he : formEnd t (w.along t c) = formEnd t ((formEnd t)^[c.ends] w) := formEnd_atLine _ _ _
    rw [if_neg h, hn, he, Tape.overflows]
    dsimp only [Work.along]
    rw [Function.iterate_succ_apply', formEnd_line]
    cases t.tape.holdsChannel 1 t.tape.overflow with
    | true => rfl
    | false => rfl

theorem spaceSteps_eq (k : Nat) (w : Work) : spaceSteps t k w = (spaceStep t)^[k] w := by
  induction k generalizing w with
  | zero => rfl
  | succ k ih => exact ih _

theorem spaceSteps_along (k : Nat) (w : Work) :
    spaceSteps t k w = w.along t ((Course.next t.tape)^[k] ⟨0, w.st.line, w.st.overflow⟩) := by
  rw [spaceSteps_eq]
  induction k with
  | zero => rfl
  | succ k ih => rw [Function.iterate_succ_apply', ih, spaceStep_along, Function.iterate_succ_apply']

/-- On a form of two lines or more a SPACE crosses at most one foot in two steps. -/
theorem Course.ends_le {x : Tape} (hf : 2 ≤ x.formLength) (n k : Nat) (b : Bool) :
    2 * ((Course.next x)^[k] ⟨0, n, b⟩).ends ≤ k + 1 ∧
    (x.formLength ≤ ((Course.next x)^[k] ⟨0, n, b⟩).line → 2 * ((Course.next x)^[k] ⟨0, n, b⟩).ends ≤ k) := by
  induction k with
  | zero => simp
  | succ k ih =>
    rw [Function.iterate_succ_apply']
    generalize (Course.next x)^[k] ⟨0, n, b⟩ = c at ih ⊢
    unfold Course.next
    split <;> dsimp only <;> omega

/-- Where a SPACE from a line of the form comes to (R34, R35). -/
structure Course.From (x : Tape) (n : Nat) (b : Bool) (k : Nat) (c : Course) : Prop where
  line : n + k = c.ends * x.formLength + c.line
  low : 1 ≤ c.line
  high : c.line ≤ x.formLength
  mark : c.mark = if c.ends = 0 then b || (List.range k).any fun j => x.overflows (n + 1 + j)
    else (List.range c.line).any fun j => x.overflows (j + 1)

theorem Course.From.next {x : Tape} {n k : Nat} {b : Bool} {c : Course} (hf : 1 ≤ x.formLength)
    (h : c.From x n b k) : (c.next x).From x n b (k + 1) := by
  obtain ⟨hl, h1, h2, hm⟩ := h
  unfold Course.next
  split
  · rename_i hlt
    refine ⟨by dsimp only; omega, by dsimp only; omega, hlt, ?_⟩
    dsimp only
    split
    · rename_i he
      rw [hm, if_pos he, List.range_succ, List.any_append, Bool.or_assoc]
      rw [he] at hl
      rw [show c.line + 1 = n + 1 + k by omega]
      simp
    · rename_i he
      rw [hm, if_neg he, List.range_succ, List.any_append]
      simp
  · rename_i hlt
    refine ⟨?_, Nat.le_refl _, hf, ?_⟩
    · dsimp only
      rw [Nat.succ_mul]
      omega
    · simp

theorem Course.from_iterate {x : Tape} {n : Nat} (h1 : 1 ≤ n) (h2 : n ≤ x.formLength) (b : Bool) (k : Nat) :
    ((Course.next x)^[k] ⟨0, n, b⟩).From x n b k := by
  induction k with
  | zero => exact ⟨by simp, h1, h2, by simp⟩
  | succ k ih =>
    rw [Function.iterate_succ_apply']
    exact ih.next (h1.trans h2)

theorem Course.From.ends_eq {x : Tape} {n k : Nat} {b : Bool} {c : Course} (h : c.From x n b k) :
    c.ends = (n + k - 1) / x.formLength := by
  obtain ⟨hl, h1, h2, _⟩ := h
  refine (Nat.div_eq_of_lt_le ?_ ?_).symm
  · omega
  · rw [Nat.succ_mul]
    omega

theorem Course.From.line_eq {x : Tape} {n k : Nat} {b : Bool} {c : Course} (h : c.From x n b k) :
    c.line = n + k - c.ends * x.formLength := by
  have hl := h.line
  omega

/-! ## The course of a SKIP and of a motion (R33, R36, R37) -/

/-- The next line above `n` that holds the channel is where a SKIP ends. -/
theorem skipTo_below {k m : Nat} (hk : t.tape.holdsChannel m k = true) (hl : w.st.line < m) (hm : m ≤ t.tape.formLength)
    (hb : ∀ j, w.st.line < j → j < m → t.tape.holdsChannel j k = false) :
    skipTo t k w = w.along t ⟨0, m, w.st.overflow⟩ := by
  have hs : t.tape.findStop k (w.st.line + 1) (t.tape.formLength - w.st.line) = some m :=
    Tape.findStop_eq_some.mpr ⟨hl, by omega, hk, hb⟩
  simp only [skipTo, hs]
  rfl

/-- Where no line below holds the channel, a SKIP ends on the first line of the next form that does. -/
theorem skipTo_over {k m : Nat} (hk : t.tape.holdsChannel m k = true) (h1 : 1 ≤ m) (hm : m ≤ t.tape.formLength)
    (hb : ∀ j, 1 ≤ j → j < m → t.tape.holdsChannel j k = false)
    (hn : ∀ j, w.st.line < j → j ≤ t.tape.formLength → t.tape.holdsChannel j k = false) :
    skipTo t k w = w.along t ⟨1, m, false⟩ := by
  have h0 : t.tape.findStop k (w.st.line + 1) (t.tape.formLength - w.st.line) = none :=
    Tape.findStop_eq_none.mpr fun j hj hf => hn j hj (by omega)
  have hs : t.tape.findStop k 1 t.tape.formLength = some m := Tape.findStop_eq_some.mpr ⟨h1, by omega, hk, hb⟩
  simp only [skipTo, h0, hs]
  rfl

theorem Tape.hasChannel_of_holds {x : Tape} {k m : Nat} (hk : x.holdsChannel m k = true) (h1 : 1 ≤ m)
    (hm : m ≤ x.formLength) : x.hasChannel k = true := by
  rw [Tape.hasChannel, ← Bool.not_eq_false, Option.isSome_eq_false_iff, Option.isNone_iff_eq_none,
    Tape.findStop_eq_none]
  intro h
  rw [h m h1 (by omega)] at hk
  cases hk

/-- A SKIP crosses one foot or none (R36). -/
theorem skipTo_along (k : Nat) (w : Work) : ∃ c : Course, c.ends ≤ 1 ∧ skipTo t k w = w.along t c := by
  unfold skipTo
  split
  · exact ⟨⟨0, _, w.st.overflow⟩, by simp, rfl⟩
  · split
    · exact ⟨⟨1, _, false⟩, by simp, rfl⟩
    · exact ⟨⟨1, 1, false⟩, by simp, rfl⟩

theorem carry_space {k : Nat} (h : 1 ≤ k) (w : Work) : carry t (.space k) w =
    (commit t w).along t ((Course.next t.tape)^[k] ⟨0, w.st.line, w.st.overflow⟩) := by
  have hc : Motion.commits t.tape (.space k) = true := by simp [Motion.commits]; omega
  have hs := spaceSteps_along (t := t) k (commit t w)
  rw [commit_line, commit_overflow] at hs
  simp only [carry, hc, if_true, hs]

theorem carry_skip {k : Nat} (h : t.tape.hasChannel k = true) (w : Work) :
    carry t (.skip k) w = skipTo t k (commit t w) := if_pos h

/-- A skip to a channel no line holds is a RUNAWAY (R37). -/
theorem carry_runaway {k : Nat} (h : t.tape.hasChannel k = false) (w : Work) :
    carry t (.skip k) w = w.raise t.table (w.st.entry .runaway none none) := if_neg (Bool.eq_false_iff.mp h)

/-! ## What form ends count (R41, R43) -/

/-- `w'` is `w` after `n` form ends, as far as the counts of pages and the queue tell: at most one page has joined it. -/
structure Work.Passed (n : Nat) (w w' : Work) : Prop where
  closed : w'.closed = (w.closed || decide (0 < n))
  pages : w'.st.counters.closed = w.st.counters.closed + BitVec.ofNat 32 n
  page : w'.st.page = nextPage^[n] w.st.page
  queue : ∃ new, w'.st.queue = w.st.queue ++ new ∧ new.length ≤ 1 ∧ ∀ q ∈ new, q.state = .waiting ∧ q.endJob = false

/-- A form end leaves no open page; without one to close it leaves the queue alone, with one it adds that page (R40, R82). -/
theorem formEnd_queue (t : Tools) (w : Work) : (formEnd t w).st.openPage = none ∧
    ((formEnd t w).st.queue = w.st.queue ∨ w.st.openPage ≠ none ∧
      ∃ q : Page, (formEnd t w).st.queue = w.st.queue ++ [q] ∧ q.state = .waiting ∧ q.endJob = false) := by
  cases hp : w.st.openPage with
  | none =>
    simp only [formEnd, hp]
    exact ⟨hp, .inl rfl⟩
  | some p =>
    have hq := completePage_queue t p w
    simp only [formEnd, hp]
    refine ⟨closePage_openPage t false p w, .inr ⟨by simp, (completePage t p w).1.finish t.layout false, ?_, rfl, rfl⟩⟩
    exact congrArg (· ++ _) hq

theorem formEnds_queue (n : Nat) (w : Work) :
    (0 < n → ((formEnd t)^[n] w).st.openPage = none) ∧
    ∃ new, ((formEnd t)^[n] w).st.queue = w.st.queue ++ new ∧ new.length ≤ (if n = 0 then 0 else 1) ∧
      ∀ q ∈ new, q.state = .waiting ∧ q.endJob = false := by
  induction n with
  | zero => exact ⟨by simp, [], by simp⟩
  | succ n ih =>
    rw [Function.iterate_succ_apply']
    obtain ⟨hopen, new, hq, hlen, hnew⟩ := ih
    obtain ⟨ho, hf | ⟨hs, q, hf, hqs⟩⟩ := formEnd_queue t ((formEnd t)^[n] w)
    · exact ⟨fun _ => ho, new, hf.trans hq, hlen.trans (by split <;> simp), hnew⟩
    · have hn : n = 0 := by
        by_contra h0
        exact hs (hopen (Nat.pos_of_ne_zero h0))
      subst hn
      exact ⟨fun _ => ho, [q], hf, by simp, by simpa using hqs⟩

theorem formEnds_passed (n : Nat) (w : Work) : w.Passed n ((formEnd t)^[n] w) := by
  have hq := (formEnds_queue (t := t) n w).2
  refine ⟨?_, ?_, ?_, hq.imp fun new h => ⟨h.1, h.2.1.trans (by split <;> simp), h.2.2⟩⟩
  · cases n with
    | zero => simp
    | succ n => rw [Function.iterate_succ_apply']; simp [formEnd]
  · clear hq
    induction n with
    | zero => simp
    | succ n ih =>
      rw [Function.iterate_succ_apply', (formEnd_counts t _).1, ih]
      simp [BitVec.ofNat_add, BitVec.add_assoc]
  · clear hq
    induction n with
    | zero => rfl
    | succ n ih => rw [Function.iterate_succ_apply', (formEnd_counts t _).2, ih, Function.iterate_succ_apply']

/-- What a commit and the record of strikes leave alone: the ground and the page-closed flag. -/
structure Work.SameGround (w w' : Work) : Prop where
  ground : w'.st.ground = w.st.ground
  closed : w'.closed = w.closed

theorem Work.SameGround.refl (w : Work) : w.SameGround w := ⟨rfl, rfl⟩

theorem Work.SameGround.place {w' : Work} (h : w.SameGround w') : w'.st.line = w.st.line ∧ w'.st.overflow = w.st.overflow :=
  ⟨congrArg (·.1) h.ground, congrArg (·.2.1) h.ground⟩

theorem commit_sameGround (t : Tools) (w : Work) : w.SameGround (commit t w) := ⟨commit_ground t w, commit_closed t w⟩

theorem Work.Passed.between {n : Nat} {a b c d : Work} (hp : b.Passed n c) (h : a.SameGround b) (h' : c.SameGround d) :
    a.Passed n d := by
  obtain ⟨hg, hc⟩ := h
  obtain ⟨hg', hc'⟩ := h'
  simp only [Station.ground, Prod.mk.injEq] at hg hg'
  obtain ⟨_, _, hpage, _, _, hqueue, hclosed, _⟩ := hg
  obtain ⟨_, _, hpage', _, _, hqueue', hclosed', _⟩ := hg'
  obtain ⟨h1, h2, h3, h4⟩ := hp
  exact ⟨by rw [hc', h1, hc], by rw [hclosed', h2, hclosed], by rw [hpage', h3, hpage], by rwa [hqueue', ← hqueue]⟩

theorem along_passed (c : Course) (w : Work) : w.Passed c.ends (w.along t c) := by
  obtain ⟨h1, h2, h3, h4⟩ := formEnds_passed (t := t) c.ends w
  exact ⟨h1, h2, h3, h4⟩

/-- Where a SPACE of `k` comes to from line `l` with mark `b`: its form ends, line and mark (R34, R35). -/
def spacePlace (x : Tape) (k l : Nat) (b : Bool) (n line : Nat) (mark : Bool) : Prop :=
  n = (l + k - 1) / x.formLength ∧ line = l + k - n * x.formLength ∧
    mark = if n = 0 then b || (List.range k).any fun j => x.holdsChannel (l + 1 + j) x.overflow
      else (List.range line).any fun j => x.holdsChannel (j + 1) x.overflow

theorem Course.From.place {x : Tape} {n k : Nat} {b : Bool} {c : Course} (h : c.From x n b k) :
    spacePlace x k n b c.ends c.line c.mark := ⟨h.ends_eq, h.line_eq, h.mark⟩

/-- A motion passes at most two form ends, and a SPACE ends where its steps lead (R33 to R37, R41). -/
theorem carry_passed {m : Motion} (hm : ∀ k, m = .space k → k ≤ 3) (hf : 2 ≤ t.tape.formLength) (w : Work) :
    ∃ n, n ≤ 2 ∧ w.Passed n (carry t m w) ∧ ∀ k, m = .space k → 1 ≤ w.st.line → w.st.line ≤ t.tape.formLength →
      spacePlace t.tape k w.st.line w.st.overflow n (carry t m w).st.line (carry t m w).st.overflow := by
  have still : ∀ w', w.SameGround w' → w.Passed 0 w' := fun w' h =>
    Work.Passed.between (formEnds_passed (t := t) 0 w) (.refl w) h
  have along : ∀ c, w.Passed c.ends ((commit t w).along t c) := fun c =>
    (along_passed c _).between (commit_sameGround t w) (.refl _)
  cases m with
  | space k =>
    rcases Nat.eq_zero_or_pos k with rfl | hk
    · have hc : carry t (.space 0) w = w := rfl
      refine ⟨0, by simp, still _ (.refl w), fun k hk h1 h2 => ?_⟩
      obtain rfl : 0 = k := Motion.space.inj hk
      exact (Course.from_iterate h1 h2 w.st.overflow 0).place
    · rw [carry_space hk]
      have hends := (Course.ends_le hf w.st.line k w.st.overflow).1
      have h3 := hm k rfl
      refine ⟨_, by omega, along _, fun j hj h1 h2 => ?_⟩
      obtain rfl : k = j := Motion.space.inj hj
      exact (Course.from_iterate h1 h2 w.st.overflow k).place
  | skip k =>
    cases hc : t.tape.hasChannel k with
    | true =>
      obtain ⟨c, he, hs⟩ := skipTo_along (t := t) k (commit t w)
      rw [carry_skip hc, hs]
      exact ⟨c.ends, by omega, along c, fun j hj => nomatch hj⟩
    | false =>
      rw [carry_runaway hc]
      exact ⟨0, by simp, still _ ⟨Station.raise_ground _ _ _, rfl⟩, fun j hj => nomatch hj⟩

/-! ## The whole work (R31, R32) -/

/-- The print bytes of an order recorded, if it has any. -/
def Work.printed (t : Tools) (bytes : Option (List Byte)) (w : Work) : Work :=
  match bytes with
  | none => w
  | some bs => w.recorded t bs

theorem printed_sameGround (bytes : Option (List Byte)) (w : Work) : w.SameGround (w.printed t bytes) := by
  cases bytes with
  | none => exact .refl w
  | some bs =>
    rw [Work.printed, ← recordStrikes_eq]
    exact ⟨recordStrikes_ground bs w,
      recordStrikes_keeps (Q := fun x => x.closed = w.closed) (fun _ _ h => h) (fun _ _ h => h) bs rfl⟩

theorem lineWork_before {c : Control} (hb : c.before = true) (bytes : Option (List Byte)) (st : Station) :
    lineWork t c bytes st = (carry t c.motion ⟨st, false, false⟩).printed t bytes := by
  cases bytes with
  | none => rfl
  | some bs =>
    rw [Work.printed, ← recordStrikes_eq]
    exact if_pos hb

theorem lineWork_after {c : Control} (hb : c.before = false) (bytes : Option (List Byte)) (st : Station) :
    lineWork t c bytes st = carry t c.motion (Work.printed t bytes ⟨st, false, false⟩) := by
  cases bytes with
  | none => rfl
  | some bs =>
    rw [Work.printed, ← recordStrikes_eq]
    exact if_neg (Bool.eq_false_iff.mp hb)

/-- Strikes change neither the form ends nor the place of an order. -/
theorem lineWork_passed {c : Control} (hm : ∀ k, c.motion = .space k → k ≤ 3) (hf : 2 ≤ t.tape.formLength)
    (bytes : Option (List Byte)) (st : Station) : ∃ n, n ≤ 2 ∧ Work.Passed n ⟨st, false, false⟩ (lineWork t c bytes st) ∧
      ∀ k, c.motion = .space k → 1 ≤ st.line → st.line ≤ t.tape.formLength →
        spacePlace t.tape k st.line st.overflow n (lineWork t c bytes st).st.line (lineWork t c bytes st).st.overflow := by
  cases hb : c.before with
  | true =>
    rw [lineWork_before hb]
    obtain ⟨n, h2, hp, hs⟩ := carry_passed hm hf ⟨st, false, false⟩
    have hg := printed_sameGround (t := t) bytes (carry t c.motion ⟨st, false, false⟩)
    rw [hg.place.1, hg.place.2]
    exact ⟨n, h2, hp.between (.refl _) hg, hs⟩
  | false =>
    rw [lineWork_after hb]
    have hg := printed_sameGround (t := t) bytes ⟨st, false, false⟩
    obtain ⟨n, h2, hp, hs⟩ := carry_passed hm hf (Work.printed t bytes ⟨st, false, false⟩)
    rw [hg.place.1, hg.place.2] at hs
    exact ⟨n, h2, hp.between hg (.refl _), hs⟩

/-- A SPACE is of at most 3 lines (R30). -/
theorem Control.ofByte_space {b : Byte} {c : Control} (h : Control.ofByte b = some c) {k : Nat} (hm : c.motion = .space k) :
    k ≤ 3 := by
  unfold Control.ofByte at h
  simp only at h
  split at h
  · cases h
  · split at h
    · split at h <;> cases h
      cases hm
    · split at h <;> cases h
      rename_i h3
      exact Motion.space.inj hm ▸ h3

/-- Where a motion that leaves the line comes to: a SPACE by its steps, a SKIP on the next line that holds its channel (R34 to
R36). -/
def leads (x : Tape) (m : Motion) (l : Nat) (b : Bool) (ends line : Nat) (mark : Bool) : Prop :=
  (∃ k, m = .space k ∧ 1 ≤ k ∧ 1 ≤ l ∧ l ≤ x.formLength ∧ spacePlace x k l b ends line mark) ∨
  ∃ k, m = .skip k ∧ x.holdsChannel line k = true ∧ line ≤ x.formLength ∧
    (ends = 0 ∧ mark = b ∧ l < line ∧ (∀ j, l < j → j < line → x.holdsChannel j k = false) ∨
      ends = 1 ∧ mark = false ∧ 1 ≤ line ∧ (∀ j, 1 ≤ j → j < line → x.holdsChannel j k = false) ∧
        ∀ j, l < j → j ≤ x.formLength → x.holdsChannel j k = false)

/-- A motion that leaves the line commits it, passes its form ends and comes to its line and mark (R33). -/
theorem carry_leads {m : Motion} {ends line : Nat} {mark : Bool} (h : leads t.tape m w.st.line w.st.overflow ends line mark) :
    carry t m w = (commit t w).along t ⟨ends, line, mark⟩ := by
  rcases h with ⟨k, rfl, hk, h1, h2, hp⟩ | ⟨k, rfl, hch, hle, ⟨rfl, rfl, hlt, hb⟩ | ⟨rfl, rfl, h1, hb, hn⟩⟩
  · rw [carry_space hk]
    have hc := Course.from_iterate h1 h2 w.st.overflow k
    have hplace := hc.place
    generalize (Course.next t.tape)^[k] ⟨0, w.st.line, w.st.overflow⟩ = c at hplace ⊢
    obtain ⟨he, hl, hm⟩ := hp
    obtain ⟨he', hl', hm'⟩ := hplace
    have hends : c.ends = ends := he'.trans he.symm
    have hline : c.line = line := by rw [hl', hl, hends]
    have hmark : c.mark = mark := by rw [hm', hm, hends, hline]
    rw [← hends, ← hline, ← hmark]
  · rw [carry_skip (Tape.hasChannel_of_holds hch (by omega) hle)]
    have hl := commit_line t w
    rw [skipTo_below hch (hl ▸ hlt) hle (hl ▸ hb), commit_overflow]
  · rw [carry_skip (Tape.hasChannel_of_holds hch h1 hle)]
    have hl := commit_line t w
    exact skipTo_over hch h1 hle hb (hl ▸ hn)

theorem Station.restartIdle_expected (b : Bool) (st : Station) :
    Station.restartIdle { st with expected := b } = { st with
      expected := b
      idle := if st.timerSetting ≠ 0 ∧ st.state = .ready ∧ st.busy = true then .running else .off } := by
  have hm : Station.meetsRunning { st with expected := b } = st.meetsRunning := rfl
  simp only [Station.restartIdle_eq, hm, Station.meetsRunning_iff]

/-- Station `st` after a taken line order whose work is `w`: the expected bit flipped, the timer started afresh (R21, R62). -/
def Station.afterLine (st : Station) (w : Work) : Station :=
  { w.st with
    expected := !st.expected
    idle := if st.timerSetting ≠ 0 ∧ w.st.state = .ready ∧ w.st.busy = true then .running else .off }

theorem takeLineOrder_eq (t : Tools) (c : Control) (bytes : Option (List Byte)) (st : Station) :
    takeLineOrder t c bytes st = (st.afterLine (lineWork t c bytes st), Answer.ofWork (lineWork t c bytes st)) := by
  have hset := lineWork_settings t c bytes st
  simp only [Station.settings, Prod.mk.injEq] at hset
  obtain ⟨_, _, hexp, _, htimer, _⟩ := hset
  rw [Station.afterLine, ← htimer, ← hexp]
  exact congrArg (·, _) (Station.restartIdle_expected _ _)

/-- A PRINT or MOVE that READY takes, with a slot where it needs one, is carried out (R6, R64). -/
theorem Station.lineOrder_taken {st : Station} {ctl : Control} {free : Bool} {c : Byte} (hc : Control.ofByte c = some ctl)
    (hs : st.state = .ready) (bytes : Option (List Byte))
    (hn : st.needsSlot t ctl.motion (ctl.bytesBefore (bytes.getD [])) = true → free = true) :
    st.lineOrder t free st.expected c bytes = takeLineOrder t ctl bytes st := by
  have hslot : (st.needsSlot t ctl.motion (ctl.bytesBefore (bytes.getD [])) && !free) = false := by
    cases hf : free with
    | true => exact Bool.and_false _
    | false =>
      rw [hf] at hn
      simpa using hn
  simp [Station.lineOrder, hc, hs, hslot]

/-- Settles O55: the counts from what form ends count, the whole from `carry_leads`. -/
theorem takenLineOrdersAreDone : Obligations.TakenLineOrdersAreDone := by
  intro s h c ctl bytes ha st tools lead go hctl hlen hready hseq hform hslot
  have hfit : (c :: bytes.getD []).length ≤ 1023 := Nat.succ_le_succ hlen
  have htake : (s.station h.station).lineOrder tools (s.canOpen h.station) h.seq c bytes =
      takeLineOrder tools ctl bytes st := hseq ▸ Station.lineOrder_taken hctl hready bytes hslot
  have hgo : go = .next ((s.setStation h.station (takeLineOrder tools ctl bytes st).1).owe lead
      (takeLineOrder tools ctl bytes st).2) := by
    obtain ⟨hl, hs, hd⟩ := ha
    cases bytes with
    | none =>
      have he := exec_of_accepted (c := .move h [c]) rfl hl hd hs hfit
      rw [← htake]
      exact he
    | some bs =>
      have he := exec_of_accepted (c := .print h (c :: bs)) rfl hl hd hs hfit
      rw [← htake]
      exact he
  rw [takeLineOrder_eq] at hgo
  obtain ⟨n, hn, hpassed, hplace⟩ :=
    lineWork_passed (t := tools) (fun k => Control.ofByte_space hctl) hform bytes st
  obtain ⟨hclosed, hpages, hpage, new, hqueue, hone, hnew⟩ := hpassed
  have hset := lineWork_settings tools ctl bytes st
  simp only [Station.settings, Prod.mk.injEq] at hset
  obtain ⟨hsel, hjob, _, hquota, htimer, hmatch⟩ := hset
  constructor
  · refine ⟨st.afterLine (lineWork tools ctl bytes st), (lineWork tools ctl bytes st).noted, n, new, ?_, rfl, hsel, hjob,
      hquota, htimer, hmatch, (lineStable_imaged tools _).lineWork ctl bytes rfl, hn, hpages, hpage, hqueue, hone, hnew,
      hplace, ?_⟩
    · rw [hgo, Answer.ofWork, hclosed, Bool.false_or]
    · rw [show (st.afterLine (lineWork tools ctl bytes st)).timerSetting = st.timerSetting from htimer]
      rfl
  · intro ends line mark form overflows hleads strike start left moved done
    have hleads' : leads tools.tape ctl.motion st.line st.overflow ends line mark := hleads
    have hstart : ∀ w, start.SameGround w → carry tools ctl.motion w = (commit tools w).along tools ⟨ends, line, mark⟩ :=
      fun w hw => carry_leads (by rwa [hw.place.1, hw.place.2])
    have hclosed : ∀ w, start.SameGround w →
        ((commit tools w).along tools ⟨ends, line, mark⟩).closed = decide (0 < ends) :=
      fun w hw => by rw [(along_passed _ _).closed, commit_closed, hw.closed]; exact Bool.false_or _
    have hdone : lineWork tools ctl bytes st = done ∧ done.closed = decide (0 < ends) := by
      dsimp only [done, moved, left]
      cases hb : ctl.before with
      | true =>
        rw [lineWork_before hb, hstart start (.refl _)]
        exact ⟨rfl, (printed_sameGround bytes _).closed.trans (hclosed start (.refl _))⟩
      | false =>
        rw [lineWork_after hb, hstart _ (printed_sameGround bytes _)]
        exact ⟨rfl, hclosed _ (printed_sameGround bytes _)⟩
    rw [hgo, hdone.1, Answer.ofWork, hdone.2]
    rfl

end Sys2Proof.Machine
end

section
/-! SUPPORT. PRINTs and MOVEs that are not taken (R6, R61 to R65): the control byte by its bits, and the answers at a station in
the order of the checks. -/

namespace Sys2Proof.Machine

variable {s : State} {h : Head} {t : Tools} {st : Station}

/-! ## The control byte (R30, R180) -/

/-- The two bits of a byte that no control byte sets. -/
theorem extractLsb'_four_two_eq_zero (b : Byte) :
    b.extractLsb' 4 2 = 0 ↔ b.getLsbD 4 = false ∧ b.getLsbD 5 = false := by
  constructor
  · intro hb
    have hbit : ∀ i, (b.extractLsb' 4 2).getLsbD i = false := fun i => by rw [hb]; exact BitVec.getLsbD_zero
    exact ⟨by simpa using hbit 0, by simpa using hbit 1⟩
  · rintro ⟨h4, h5⟩
    refine BitVec.eq_of_getLsbD_eq fun i hi => ?_
    obtain rfl | rfl : i = 0 ∨ i = 1 := by omega
    · simpa using h4
    · simpa using h5

/-- A control byte with bits 4 and 5 clear names its motion by bit 6 and the count or channel (R30, R181). -/
theorem Control.ofByte_eq {b : Byte} (h4 : b.getLsbD 4 = false) (h5 : b.getLsbD 5 = false) : Control.ofByte b =
    if b.getLsbD 6 = true then
      if 1 ≤ (b.extractLsb' 0 4).toNat ∧ (b.extractLsb' 0 4).toNat ≤ 12 then
        some ⟨b.getLsbD 7, .skip (b.extractLsb' 0 4).toNat⟩ else none
    else if (b.extractLsb' 0 4).toNat ≤ 3 then some ⟨b.getLsbD 7, .space (b.extractLsb' 0 4).toNat⟩ else none :=
  if_neg (not_not.mpr ((extractLsb'_four_two_eq_zero b).mpr ⟨h4, h5⟩))

/-- A control byte that names no motion (R181). -/
theorem Control.ofByte_eq_none {b : Byte}
    (hb : b.getLsbD 4 = true ∨ b.getLsbD 5 = true ∨ b.getLsbD 6 = false ∧ 4 ≤ (b.extractLsb' 0 4).toNat ∨
      b.getLsbD 6 = true ∧ ((b.extractLsb' 0 4).toNat = 0 ∨ 13 ≤ (b.extractLsb' 0 4).toNat)) :
    Control.ofByte b = none := by
  by_cases hz : b.extractLsb' 4 2 = 0
  · obtain ⟨h4, h5⟩ := (extractLsb'_four_two_eq_zero b).mp hz
    rw [Control.ofByte_eq h4 h5]
    rw [h4, h5] at hb
    rcases hb with hb | hb | ⟨h6, hn⟩ | ⟨h6, hn⟩
    · cases hb
    · cases hb
    · rw [h6, if_neg Bool.false_ne_true, if_neg (by omega)]
    · rw [h6, if_pos rfl, if_neg (by omega)]
  · exact if_pos hz

/-! ## An accepted PRINT or MOVE -/

/-- An accepted PRINT is answered as the station's checks say. -/
theorem exec_print (ha : s.accepts h) {c : Byte} {bytes : List Byte} {a : Answer} (hlen : bytes.length ≤ 1022)
    (hr : (s.station h.station).lineOrder (s.library.tools (s.station h.station).sel) (s.canOpen h.station) h.seq c
      (some bytes) = (st, a)) :
    exec (.print h (c :: bytes)) s = .next ((s.setStation h.station st).owe (leadOf h 0x01) a) := by
  obtain ⟨hl, hs, hd⟩ := ha
  have he := exec_of_accepted (c := .print h (c :: bytes)) rfl hl hd hs (Nat.succ_le_succ hlen)
  have hc : carryOut (leadOf h 0x01) (c :: bytes) s = (s.setStation h.station st, a) :=
    carryOut_print.trans (by rw [orderPrint, State.atStation, hr])
  rwa [hc] at he

/-- An accepted MOVE is answered as the station's checks say. -/
theorem exec_move (ha : s.accepts h) {c : Byte} {a : Answer}
    (hr : (s.station h.station).lineOrder (s.library.tools (s.station h.station).sel) (s.canOpen h.station) h.seq c
      none = (st, a)) :
    exec (.move h [c]) s = .next ((s.setStation h.station st).owe (leadOf h 0x02) a) := by
  obtain ⟨hl, hs, hd⟩ := ha
  have he := exec_of_accepted (c := .move h [c]) rfl hl hd hs (show [c].length ≤ 1023 by simp)
  have hc : carryOut (leadOf h 0x02) [c] s = (s.setStation h.station st, a) :=
    carryOut_move.trans (by rw [orderMove, State.atStation, hr])
  rwa [hc] at he

/-! ## The checks in their order (R6) -/

section
variable {free seq : Bool} {b : Byte} {ctl : Control} {bytes : Option (List Byte)}

theorem Station.lineOrder_badField (hc : Control.ofByte b = none) :
    st.lineOrder t free seq b bytes = (st, .refused .badField) := by
  simp only [Station.lineOrder, hc]

theorem Station.lineOrder_unloaded (hc : Control.ofByte b = some ctl) (hs : st.state = .unloaded) :
    st.lineOrder t free seq b bytes = (st, .refused .notReady) := by
  simp only [Station.lineOrder, hc, hs, if_true]

theorem Station.lineOrder_repeat (hc : Control.ofByte b = some ctl) (hs : st.state ≠ .unloaded) (hq : seq ≠ st.expected) :
    st.lineOrder t free seq b bytes = repeatedLine t st := by
  simp only [Station.lineOrder, hc, if_neg hs, if_pos hq]

/-- A HELD or DRAINING station has the order retried (R63). -/
theorem Station.lineOrder_waits (hc : Control.ofByte b = some ctl) (hs : st.state = .held ∨ st.state = .draining) :
    st.lineOrder t free st.expected b bytes = (st, .retry) := by
  rcases hs with hs | hs <;> simp [Station.lineOrder, hc, hs]

theorem Station.lineOrder_stopped (hc : Control.ofByte b = some ctl) (hs : st.state = .stopped) :
    st.lineOrder t free st.expected b bytes = (st, .refused .stopped) := by
  simp [Station.lineOrder, hc, hs]

/-- A READY station without the slot the order needs has it retried (R64). -/
theorem Station.lineOrder_noSlot (hc : Control.ofByte b = some ctl) (hs : st.state = .ready)
    (hn : st.needsSlot t ctl.motion (ctl.bytesBefore (bytes.getD [])) = true) :
    st.lineOrder t false st.expected b bytes = (st, .retry) := by
  simp [Station.lineOrder, hc, hs, hn]

end

/-- A motion that leaves the line: a SPACE of 1 line or more, a SKIP to a channel some line of the form holds (R33). -/
theorem Motion.commits_of {x : Tape} {m : Motion}
    (hm : (∃ n, m = .space n ∧ n ≠ 0) ∨
      ∃ k n, m = .skip k ∧ 1 ≤ n ∧ n ≤ x.formLength ∧ x.holdsChannel n k = true) : m.commits x = true := by
  rcases hm with ⟨n, rfl, hn⟩ | ⟨k, n, rfl, h1, hn, hk⟩
  · exact bne_iff_ne.mpr hn
  · exact Tape.hasChannel_of_holds hk h1 hn

/-- A form without an open page needs a slot for a line with strikes, its own or the order's under AFTER (R64). -/
theorem Station.needsSlot_of {ctl : Control} {bytes : List Byte} (ho : st.openPage = none)
    (hs : st.hasStrikes = true ∨
      ctl.before = false ∧ ∃ b ∈ bytes.take 132, (lookDrum t.drum b).strike.isSome = true)
    (hm : ctl.motion.commits t.tape = true) : st.needsSlot t ctl.motion (ctl.bytesBefore bytes) = true := by
  have hstrikes : (st.hasStrikes || anyStrike t.drum (ctl.bytesBefore bytes)) = true := by
    rw [Bool.or_eq_true]
    refine hs.imp_right fun ⟨hb, hany⟩ => ?_
    simpa [anyStrike, Control.bytesBefore, hb, Config.positions] using hany
  simp [Station.needsSlot, hm, hstrikes, ho]

/-- A raising is told of where the station is not STOPPED and the disposition is not IGNORE (R131). -/
theorem Station.raiseNotes_eq (table : Dispositions) (k : Condition) (st : Station) :
    st.raiseNotes table k = decide (st.state ≠ .stopped ∧ table[k.number] ≠ .ignore) := by
  rw [Station.raiseNotes, Bool.eq_iff_iff, decide_eq_true_iff, Bool.and_eq_true, bne_iff_ne, bne_iff_ne]

/-- The answer to a repeat tells of DUPLICATE LINE applied under a disposition other than IGNORE (R61, R131). -/
theorem repeatedLine_eq (t : Tools) (st : Station) : repeatedLine t st =
    (st.raise t.table ⟨.duplicateLine, st.page, st.line, none, none⟩,
      { Answer.done with
        duplicate := true
        condition := decide (st.state ≠ .stopped ∧ t.table[(15 : Fin 16)] ≠ .ignore) }) := by
  rw [repeatedLine, Station.raiseNotes_eq]
  rfl

/-- Settles O58: each check in its turn, the earlier ones passed. -/
theorem untakenLineOrders : Obligations.UntakenLineOrders := by
  constructor
  · intro c low h4 h5
    rw [Control.ofByte_eq h4 h5]
    exact ⟨fun h6 hn => by rw [h6, if_neg Bool.false_ne_true, if_pos hn],
      fun h6 h1 hn => by rw [h6, if_pos rfl, if_pos ⟨h1, hn⟩]⟩
  intro s h c bytes ha hlen st tools table lead go low
  have answered : ∀ {u : Station} {a : Answer}, st.lineOrder tools (s.canOpen h.station) h.seq c bytes = (u, a) →
      go = .next ((s.setStation h.station u).owe lead a) := by
    intro u a hr
    cases bytes with
    | none => exact exec_move ha hr
    | some bs => exact exec_print ha hlen hr
  have turnedAway : ∀ {a : Answer}, st.lineOrder tools (s.canOpen h.station) h.seq c bytes = (st, a) →
      go = .next (s.owe lead a) := by
    intro a hr
    have := answered hr
    rwa [State.setStation_station] at this
  refine ⟨fun hbad => turnedAway (Station.lineOrder_badField (Control.ofByte_eq_none hbad)), ?_⟩
  intro ctl hctl
  refine ⟨fun hs => turnedAway (Station.lineOrder_unloaded hctl hs), fun hs hq => ?_, fun hq hs => ?_, fun hq hs => ?_,
    fun hq hs ho hfree hstrikes hmotion => ?_⟩
  · exact answered ((Station.lineOrder_repeat hctl hs hq).trans (repeatedLine_eq tools st))
  · exact turnedAway (hq ▸ Station.lineOrder_waits hctl hs)
  · exact turnedAway (hq ▸ Station.lineOrder_stopped hctl hs)
  · have hneed := Station.needsSlot_of ho hstrikes (Motion.commits_of hmotion)
    exact turnedAway (hq ▸ hfree ▸ Station.lineOrder_noSlot hctl hs hneed)

end Sys2Proof.Machine
end

section
/-! SUPPORT. PRINTs and MOVEs whose motion leaves the carriage where it is: SPACE 0 and RUNAWAY (R31, R37, R48 to R54). -/

namespace Sys2Proof.Machine

variable {s : State} {h : Head} {t : Tools} {st : Station} {w : Work}

/-! ## A list of raisings -/

theorem Work.raiseAll_st (table : Dispositions) (es : List CondEntry) (w : Work) :
    (w.raiseAll table es).st = es.foldl (fun x e => x.raise table e) w.st := by
  induction es generalizing w with
  | nil => rfl
  | cons e es ih => exact ih _

@[simp] theorem Work.raiseAll_closed (table : Dispositions) (es : List CondEntry) (w : Work) :
    (w.raiseAll table es).closed = w.closed := by
  induction es generalizing w with
  | nil => rfl
  | cons e es ih => exact ih _

/-- Only a condition under a disposition other than IGNORE takes a station to STOPPED (R123 to R127). -/
theorem Station.raise_stopped {table : Dispositions} {e : CondEntry} (h : st.state ≠ .stopped)
    (hr : (st.raise table e).state = .stopped) : table[e.kind.number] ≠ .ignore := by
  intro hd
  rw [Station.raise, if_neg h, hd] at hr
  exact h hr

/-- The conditions raised from a station that is not STOPPED are told of if one of them has a disposition other than IGNORE:
one that stops the station has (R131). -/
theorem Work.raiseAll_noted {table : Dispositions} (es : List CondEntry) {w : Work}
    (hw : w.st.state = .stopped → w.noted = true) :
    (w.raiseAll table es).noted = (w.noted || es.any fun e => table[e.kind.number] != .ignore) := by
  induction es generalizing w with
  | nil => exact (Bool.or_false _).symm
  | cons e es ih =>
    have hnoted : (w.raise table e).noted = (w.noted || table[e.kind.number] != .ignore) := by
      by_cases hs : w.st.state = .stopped
      · rw [Work.raise_noted, hw hs, Bool.true_or, Bool.true_or]
      · rw [Work.raise_noted, Station.raiseNotes, bne_iff_ne.mpr hs, Bool.true_and]
    refine (ih (w := w.raise table e) fun hr => ?_).trans ?_
    · rw [hnoted]
      by_cases hs : w.st.state = .stopped
      · rw [hw hs, Bool.true_or]
      · rw [bne_iff_ne.mpr (Station.raise_stopped hs hr), Bool.or_true]
    · rw [hnoted, List.any_cons, Bool.or_assoc]

/-- Conditions of other kinds leave a condition's count alone (R121). -/
theorem Work.raiseAll_count {table : Dispositions} (k : Fin 16) {es : List CondEntry} (hes : ∀ e ∈ es, e.kind.number ≠ k)
    (w : Work) : (w.raiseAll table es).st.record.counts[k] = w.st.record.counts[k] := by
  induction es generalizing w with
  | nil => rfl
  | cons e es ih =>
    have hk : e.kind.number.val ≠ k.val := fun h => hes e List.mem_cons_self (Fin.ext h)
    refine (ih (fun x hx => hes x (List.mem_cons_of_mem _ hx)) (w.raise table e)).trans ?_
    simp [Station.raise_counts, hk]

/-! ## The pending line after print bytes (R53, R54) -/

theorem struckLine_get (drum : DrumTable) (bytes : List Byte) (old : Vector Position 132) (p : Fin 132) :
    (struckLine drum bytes old)[p] =
      if strikesOf (bytes[p.val]?.map (lookDrum drum)) = [] then old[p]
      else if old[p].strikes.length < 3 then
        { old[p] with strikes := old[p].strikes ++ strikesOf (bytes[p.val]?.map (lookDrum drum)) }
      else { old[p] with excess := true } := by
  simp only [struckLine, Fin.getElem_fin, Vector.getElem_ofFn]

/-- Print bytes take no strike away (R53). -/
theorem strikes_kept_by_struckLine (drum : DrumTable) (bytes : List Byte) (old : Vector Position 132) (p : Fin 132) :
    old[p].strikes <+: (struckLine drum bytes old)[p].strikes := by
  rw [struckLine_get]
  split
  · exact List.prefix_rfl
  · split
    · exact List.prefix_append ..
    · exact List.prefix_rfl

/-- Where every position struck has room, each position takes its byte's strike (R53). -/
theorem struckLine_of_room {drum : DrumTable} {bytes : List Byte} {old : Vector Position 132}
    (hroom : ∀ p : Fin 132, p.val < bytes.length → old[p].strikes.length ≤ 2) (p : Fin 132) :
    (struckLine drum bytes old)[p] =
      { old[p] with strikes := old[p].strikes ++ strikesOf (bytes[p.val]?.map (lookDrum drum)) } := by
  rw [struckLine_get]
  split
  · rename_i hnone
    rw [hnone, List.append_nil]
  · rename_i hsome
    have hp : p.val < bytes.length := by
      by_contra hp
      rw [List.getElem?_eq_none (Nat.not_lt.mp hp)] at hsome
      exact hsome rfl
    rw [if_pos (Nat.lt_succ_of_le (hroom p hp))]

/-- Print bytes that fit the line, find room and meet no ABSENT or SUBSTITUTE raise nothing (R50, R54). -/
theorem strikeEntries_eq_nil {drum : DrumTable} {bytes : List Byte} (hlen : bytes.length ≤ 132)
    (hroom : ∀ p : Fin 132, p.val < bytes.length → st.strikes[p].strikes.length ≤ 2)
    (hkinds : ∀ b ∈ bytes, lookDrum drum b ≠ .absent ∧ ∀ g, lookDrum drum b ≠ .substitute g) :
    strikeEntries drum bytes st = [] := by
  have hdrops : firstDrops drum bytes st.strikes = [] := List.eq_nil_iff_forall_not_mem.mpr fun p hp => by
    have hfull := (of_decide_eq_true (List.mem_filter.mp hp).2).2.1
    have hfew := hroom p (firstDrops_lt hp)
    omega
  have hnowhere : ∀ kind : DrumEntry → Bool, (∀ b ∈ bytes, kind (lookDrum drum b) = false) →
      ((bytes.take 132).findIdx? fun b => kind (lookDrum drum b)) = none := fun kind hk =>
    List.findIdx?_eq_none_iff.mpr fun b hb => hk b (List.mem_of_mem_take hb)
  have habsent : ∀ x : DrumEntry, x ≠ .absent → x.isAbsent = false := fun x hx => by
    cases x with
    | absent => exact absurd rfl hx
    | _ => rfl
  have hsubstitute : ∀ x : DrumEntry, (∀ g, x ≠ .substitute g) → x.isSubstitute = false := fun x hx => by
    cases x with
    | substitute g => exact absurd rfl (hx g)
    | _ => rfl
  rw [strikeEntries_eq, if_neg (Nat.not_lt.mpr hlen), hdrops,
    hnowhere DrumEntry.isAbsent fun b hb => habsent _ (hkinds b hb).1,
    hnowhere DrumEntry.isSubstitute fun b hb => hsubstitute _ (hkinds b hb).2]
  rfl

/-- The kinds of condition print bytes raise. -/
theorem strikeEntries_kind {drum : DrumTable} {bytes : List Byte} {e : CondEntry} (he : e ∈ strikeEntries drum bytes st) :
    e.kind = .lineTooLong ∨ e.kind = .excessStrike ∨ e.kind = .notOnDrum ∨ e.kind = .substituted := by
  rw [strikeEntries_eq, List.mem_append, List.mem_append, List.mem_append] at he
  rcases he with ((he | he) | he) | he
  · split at he
    · exact .inl (by rw [List.mem_singleton.mp he]; rfl)
    · cases he
  · obtain ⟨p, _, rfl⟩ := List.mem_map.mp he
    exact .inr (.inl rfl)
  · obtain ⟨p, _, rfl⟩ := List.mem_map.mp he
    exact .inr (.inr (.inl rfl))
  · obtain ⟨p, _, rfl⟩ := List.mem_map.mp he
    exact .inr (.inr (.inr rfl))

/-! ## Recorded print bytes -/

theorem Work.recorded_eq (t : Tools) (bytes : List Byte) (w : Work) : w.recorded t bytes =
    (w.struck (struckLine t.drum bytes w.st.strikes)).raiseAll t.table (strikeEntries t.drum bytes w.st) := rfl

theorem Work.struck_closed (v : Vector Position 132) (w : Work) : (w.struck v).closed = w.closed := rfl

@[simp] theorem Work.recorded_closed (bytes : List Byte) (w : Work) : (w.recorded t bytes).closed = w.closed :=
  (Work.raiseAll_closed _ _ _).trans (Work.struck_closed _ _)

theorem Work.recorded_sameEntries (bytes : List Byte) (w : Work) : w.SameEntries (w.recorded t bytes) :=
  Work.SameEntries.trans (Work.SameEntries.struck ⟨rfl, rfl⟩ _) (Work.raiseAll_sameEntries _ _ _)

/-- What raising a condition leaves alone stands after print bytes as the new line has it. -/
theorem Work.recorded_proj {α : Type} {f : Station → α} (hf : ∀ e st, f (Station.raise t.table e st) = f st)
    (bytes : List Byte) (w : Work) :
    f (w.recorded t bytes).st = f { w.st with strikes := struckLine t.drum bytes w.st.strikes } :=
  Work.raiseAll_proj hf _ _

/-- RUNAWAY is none of the conditions of print bytes. -/
theorem Work.recorded_runaways (bytes : List Byte) (w : Work) :
    (w.recorded t bytes).st.record.counts[(5 : Fin 16)] = w.st.record.counts[(5 : Fin 16)] := by
  rw [Work.recorded_eq, Work.raiseAll_count]
  · rfl
  · intro e he
    rcases strikeEntries_kind he with hk | hk | hk | hk <;> rw [hk] <;> decide

/-! ## Orders that leave the line -/

theorem Answer.ofWork_open (hw : w.closed = false) : Answer.ofWork w = { Answer.done with condition := w.noted } := by
  rw [Answer.ofWork, hw]
  rfl

/-- READY takes an order whose motion stays on the line without a slot (R64). -/
theorem Station.lineOrder_still {free : Bool} {b : Byte} {ctl : Control} (hc : Control.ofByte b = some ctl)
    (hs : st.state = .ready) (hm : ctl.motion.commits t.tape = false) (bytes : Option (List Byte)) :
    st.lineOrder t free st.expected b bytes =
      (st.afterLine (lineWork t ctl bytes st), Answer.ofWork (lineWork t ctl bytes st)) := by
  rw [← takeLineOrder_eq]
  refine Station.lineOrder_taken hc hs bytes fun hn => ?_
  simp [Station.needsSlot, hm] at hn

/-- A PRINT with SPACE 0 records its bytes, whatever its timing (R31). -/
theorem lineWork_overprint (t : Tools) (before : Bool) (bytes : List Byte) (st : Station) :
    lineWork t ⟨before, .space 0⟩ (some bytes) st = Work.recorded t bytes ⟨st, false, false⟩ := by
  cases before with
  | false => exact lineWork_after rfl _ _
  | true => exact lineWork_before rfl _ _

/-- A station is busy with an open page or a struck position (R52). -/
theorem Station.busy_iff (st : Station) :
    st.busy = true ↔ st.openPage.isSome = true ∨ ∃ p : Fin 132, st.strikes[p].strikes ≠ [] := by
  rw [Station.busy, Bool.or_eq_true]
  refine or_congr_right ?_
  rw [← not_iff_not, Bool.not_eq_true, Station.hasStrikes_eq_false_iff]
  simp only [ne_eq, not_exists, not_not]
  constructor
  · exact fun hall p => hall _ (Vector.mem_toList_iff.mpr (Vector.getElem_mem p.isLt))
  · intro hall x hx
    obtain ⟨i, hi, rfl⟩ := Vector.mem_iff_getElem.mp (Vector.mem_toList_iff.mp hx)
    exact hall ⟨i, hi⟩

/-- Settles O56: the recorded bytes, then the case in which they raise nothing. -/
theorem overprintAddsStrikes : Obligations.OverprintAddsStrikes := by
  intro s h c before bytes ha st drum table hctl hready hseq
  have whole : bytes.length ≤ 1022 →
      let raised := strikeEntries drum bytes st
      let u := raised.foldl (fun x e => x.raise table e) { st with strikes := struckLine drum bytes st.strikes }
      exec (.print h (c :: bytes)) s = .next ((s.setStation h.station { u with
        expected := !st.expected
        idle := if st.timerSetting ≠ 0 ∧ u.state = .ready ∧ u.busy = true then .running else .off }).owe
          (leadOf h 0x01) { Answer.done with condition := raised.any fun e => table[e.kind.number] != .ignore }) := by
    intro hlen raised u
    have htaken := exec_print ha hlen (hseq ▸ Station.lineOrder_still hctl hready rfl (some bytes))
    rw [lineWork_overprint, Answer.ofWork_open (Work.recorded_closed _ _)] at htaken
    have hst : (Work.recorded (s.library.tools st.sel) bytes ⟨st, false, false⟩).st = u := Work.raiseAll_st _ _ _
    have hnoted : (Work.recorded (s.library.tools st.sel) bytes ⟨st, false, false⟩).noted =
        raised.any fun e => table[e.kind.number] != .ignore := by
      refine (Work.raiseAll_noted _ fun hs => ?_).trans (Bool.false_or _)
      rw [show st.state = .stopped from hs] at hready
      cases hready
    rw [htaken, Station.afterLine, hst, hnoted]
  refine ⟨fun hlen hroom hkinds => ⟨struckLine drum bytes st.strikes, ?_, struckLine_of_room hroom⟩, whole⟩
  have hwhole := whole (hlen.trans (by decide))
  have hruns : (st.timerSetting ≠ 0 ∧ st.state = .ready ∧
      Station.busy { st with strikes := struckLine drum bytes st.strikes } = true) ↔
      st.timerSetting ≠ 0 ∧ (st.openPage.isSome = true ∨ ∃ p : Fin 132, (struckLine drum bytes st.strikes)[p].strikes ≠ []) := by
    rw [Station.busy_iff, and_iff_right hready]
  simp only [strikeEntries_eq_nil hlen hroom hkinds, List.foldl_nil, List.any_nil, hruns] at hwhole
  exact hwhole

/-- A channel that no line of the form holds is one no SKIP finds (R37). -/
theorem Tape.hasChannel_eq_false {x : Tape} {k : Nat}
    (hn : ∀ n, 1 ≤ n → n ≤ x.formLength → x.holdsChannel n k = false) : x.hasChannel k = false := by
  rw [Tape.hasChannel, Tape.findStop_eq_none.mpr fun n h1 hf => hn n h1 (by omega)]
  rfl

/-- RUNAWAY is raised before the print bytes under BEFORE and after them under AFTER, at the same page and line (R31, R37). -/
theorem lineWork_runaway {k : Nat} (hk : t.tape.hasChannel k = false) (before : Bool) (bytes : List Byte) (st : Station) :
    lineWork t ⟨before, .skip k⟩ (some bytes) st =
      if before then (Work.raise t.table (st.entry .runaway none none) ⟨st, false, false⟩).recorded t bytes
      else (Work.recorded t bytes ⟨st, false, false⟩).raise t.table (st.entry .runaway none none) := by
  cases before with
  | true =>
    rw [lineWork_before rfl, carry_runaway hk]
    rfl
  | false =>
    obtain ⟨hpage, hline⟩ := Work.recorded_sameEntries (t := t) bytes ⟨st, false, false⟩
    rw [lineWork_after rfl, carry_runaway hk, Work.printed, Station.entry, hpage, hline]
    rfl

/-- Settles O57: what the raisings leave alone stands as the new line has it. -/
theorem runawayKeepsTheLine : Obligations.RunawayKeepsTheLine := by
  intro s h c before k bytes ha st t table hctl hready hseq hlen hnone
  have hk : t.hasChannel k = false := Tape.hasChannel_eq_false hnone
  refine ⟨?_, ?_⟩
  · intro raised
    have htaken := exec_move ha (hseq ▸ Station.lineOrder_still hctl hready hk none)
    have hwork : lineWork (s.library.tools st.sel) ⟨before, .skip k⟩ none st =
        ⟨raised, decide (table[(5 : Fin 16)] ≠ .ignore), false⟩ := by
      refine (carry_runaway hk _).trans ?_
      have hnoted : st.raiseNotes table .runaway = decide (table[(5 : Fin 16)] ≠ .ignore) := by
        simp only [Station.raiseNotes_eq, hready]
        simp [Condition.number]
      exact congrArg (fun b => (⟨raised, b, false⟩ : Work)) ((Bool.false_or _).trans hnoted)
    rw [hwork] at htaken
    have hbusy : raised.busy = st.busy := Station.raise_busy _ _ _
    rw [htaken, Station.afterLine, hbusy]
    rfl
  · intro runaway strike start done
    have hdone : lineWork (s.library.tools st.sel) ⟨before, .skip k⟩ (some bytes) st = done := lineWork_runaway hk _ _ _
    have hclosed : done.closed = false := by
      cases before with
      | false => exact Work.recorded_closed bytes start
      | true => exact Work.recorded_closed bytes (runaway start)
    have htaken := exec_print ha hlen (hseq ▸ Station.lineOrder_still hctl hready hk (some bytes))
    rw [hdone, Answer.ofWork_open hclosed] at htaken
    have stands : ∀ {α : Type} (f : Station → α), (∀ e u, f (Station.raise table e u) = f u) →
        f done.st = f { st with strikes := struckLine (s.library.tools st.sel).drum bytes st.strikes } := by
      intro α f hf
      cases before with
      | false => exact (hf _ _).trans (Work.recorded_proj hf bytes start)
      | true =>
        refine (Work.recorded_proj hf bytes (runaway start)).trans ?_
        rw [show (runaway start).st.strikes = st.strikes from Station.raise_strikes _ _ _]
        exact (congrArg f (Station.raise_struck table _ _ st).symm).trans (hf _ _)
    have hform := stands Station.form fun e u => u.raise_form table e
    have hstrikes := stands Station.strikes fun e u => u.raise_strikes table e
    simp only [Station.form, Prod.mk.injEq] at hform
    obtain ⟨hline, hmark, hpage, hcarry, hreports, hcounters, hopen, hqueue⟩ := hform
    refine ⟨st.afterLine done, done.noted, htaken, rfl, rfl, hstrikes, rfl, hline, hmark, hpage, hcounters, hcarry,
      hreports, hopen, hqueue, fun p => ?_, ?_⟩
    · rw [show (st.afterLine done).strikes = _ from hstrikes]
      exact strikes_kept_by_struckLine _ _ _ p
    · have hraised : ∀ u : Station, (u.raise table (st.entry .runaway none none)).record.counts[(5 : Fin 16)] =
          min 65535 (u.record.counts[(5 : Fin 16)] + 1) := fun u => by
        rw [Station.raise_counts]
        exact Vector.getElem_set_self _
      cases before with
      | false =>
        refine (hraised _).trans ?_
        rw [show (strike start).st.record.counts[(5 : Fin 16)] = _ from Work.recorded_runaways bytes start]
      | true => exact (Work.recorded_runaways bytes (runaway start)).trans (hraised st)

end Sys2Proof.Machine
end

section
/-! SUPPORT. What a form end leaves (R38 to R41, R82): the seam chain as a list of conditions and a last key (R98 to R100), the
guides captured and placed (R83, R101), and the statement about form ends. -/

namespace Sys2Proof.Machine

variable {t : Tools} {w : Work} {α : Type}

/-! ## The columns with a listing -/

/-- A window with CHECK and a listing, with its column record (R98). -/
def seamColumn (x : Window × ColumnRecord) : Bool := x.1.check && x.2.listings != 0

/-- A window with GUIDE and a listing, with its column record (R101). -/
def guideColumn (x : Window × ColumnRecord) : Bool := x.1.guide && x.2.listings != 0

/-- What the last of the columns has, `found` standing for those before them. -/
def lastOf (f : Window × ColumnRecord → Option α) (found : Option α) (cols : List (Window × ColumnRecord)) : Option α :=
  (cols.getLast?.map f).getD found

theorem lastOf_cons (f : Window × ColumnRecord → Option α) (found : Option α) (x : Window × ColumnRecord)
    (cols : List (Window × ColumnRecord)) : lastOf f found (x :: cols) = lastOf f (f x) cols := by
  cases h : cols.getLast? <;> simp [lastOf, List.getLast?_cons, h]

theorem lastOf_none (f : Window × ColumnRecord → Option α) (cols : List (Window × ColumnRecord)) :
    lastOf f none cols = cols.getLast?.bind f := by
  cases h : cols.getLast? <;> simp [lastOf, h]

/-! ## The seam chain (R98 to R100) -/

/-- A seam is broken where the later first key is less than the key before it (R98). -/
def seamBroken (first before : Option Key) : Bool :=
  match first, before with
  | some a, some b => compareKeys a b == .lt
  | _, _ => false

theorem seamBroken_eq (c : ColumnRecord) (first before : Option Key) :
    (columnOutcome { c with lastKey := before } first = some .lt) ↔ seamBroken first before = true := by
  cases first <;> cases before <;> simp [columnOutcome, seamBroken]

/-- The SEAM BREAK entry of a numbered column (R99). -/
def seamEntry (page : Half) (x : (Window × ColumnRecord) × Nat) : CondEntry :=
  ⟨.seamBreak, page, x.1.2.firstLine.getD Config.noFirstLine, none, some x.2⟩

/-- The conditions of the seam chain through numbered columns, `k` the key before the first (R98, R99). -/
def seamEntries (page : Half) (k : Option Key) (cols : List ((Window × ColumnRecord) × Nat)) : List CondEntry :=
  ((cols.zip (k :: cols.map fun x => x.1.2.lastKey)).filter fun x => seamBroken x.1.1.2.firstKey x.2).map
    fun x => seamEntry page x.1

theorem seamEntries_cons (page : Half) (k : Option Key) (x : (Window × ColumnRecord) × Nat)
    (cols : List ((Window × ColumnRecord) × Nat)) : seamEntries page k (x :: cols) =
      (if seamBroken x.1.2.firstKey k = true then [seamEntry page x] else []) ++ seamEntries page x.1.2.lastKey cols := by
  simp only [seamEntries, List.map_cons, List.zip_cons_cons, List.filter_cons]
  split <;> rfl

/-- The seam chain counts and raises its conditions in window order, and ends with the last key (R98 to R100). -/
theorem seamChain_eq (i : Nat) (ws : List Window) (cs : List ColumnRecord) (k : Option Key) (w : Work) :
    seamChain t i ws cs k w =
      let seams := seamEntries w.st.page k (((ws.zip cs).zipIdx i).filter fun x => seamColumn x.1)
      ((seams.length, lastOf (fun x => x.2.lastKey) k ((ws.zip cs).filter seamColumn)), w.raiseAll t.table seams) := by
  induction ws generalizing i cs k w with
  | nil => rfl
  | cons x ws ih =>
    cases cs with
    | nil => rfl
    | cons c cs =>
      simp only [seamChain, List.zip_cons_cons, List.zipIdx_cons, List.filter_cons]
      have hcolumn : seamColumn (x, c) = (x.check && c.listings != 0) := rfl
      rw [hcolumn]
      by_cases hx : (x.check && c.listings != 0) = true
      · simp only [hx, if_true, ih, lastOf_cons, seamEntries_cons, seamBroken_eq]
        by_cases hb : seamBroken c.firstKey k = true
        · have hpage : (seamRaise t i c w).st.page = w.st.page := w.st.raise_page _ _
          simp only [hb, if_true, hpage, List.length_append, List.length_singleton, Work.raiseAll_append]
          rw [Nat.add_comm]
          rfl
        · simp only [hb, Bool.false_eq_true, if_false, List.nil_append, Nat.add_zero]
      · simp only [hx, Bool.false_eq_true, if_false, ih]

/-- The conditions a closing page raises: none without a collation table (R98, R103). -/
def pageSeams (t : Tools) (p : Page) (st : Station) : List CondEntry :=
  if t.coll.isNone then []
  else seamEntries st.page st.carry (((t.layout.windows.zip p.columns).zipIdx).filter fun x => seamColumn x.1)

/-- The carry key a closing page leaves (R100, R103). -/
def pageCarry (t : Tools) (p : Page) (st : Station) : Option Key :=
  if t.coll.isNone then st.carry
  else lastOf (fun x => x.2.lastKey) st.carry ((t.layout.windows.zip p.columns).filter seamColumn)

/-- Completing a page raises its seam breaks and counts them, and writes the carry key. -/
theorem completePage_eq (t : Tools) (p : Page) (w : Work) : completePage t p w =
    ({ p with seamBreaks := p.seamBreaks + (pageSeams t p w.st).length },
      { w.raiseAll t.table (pageSeams t p w.st) with
        st := { (w.raiseAll t.table (pageSeams t p w.st)).st with carry := pageCarry t p w.st } }) := by
  unfold completePage pageSeams pageCarry
  split
  · rfl
  · rw [seamChain_eq]

/-! ## The guides (R83, R101) -/

/-- The first guide is the first text of the first GUIDE window with a listing. -/
theorem firstGuideOf_eq (ws : List Window) (cs : List ColumnRecord) :
    firstGuideOf ws cs = ((ws.zip cs).filter guideColumn).head?.bind fun x => x.2.firstText := by
  induction ws generalizing cs with
  | nil => rfl
  | cons x ws ih =>
    cases cs with
    | nil => rfl
    | cons c cs =>
      have hx : guideColumn (x, c) = (x.guide && c.listings != 0) := rfl
      rw [firstGuideOf, List.zip_cons_cons, List.filter_cons, ih, hx]
      split
      · rfl
      · rfl

/-- The last guide is the last text of the last GUIDE window with a listing. -/
theorem lastGuideOf_eq (found : Option Text) (ws : List Window) (cs : List ColumnRecord) :
    lastGuideOf found ws cs = lastOf (fun x => x.2.lastText) found ((ws.zip cs).filter guideColumn) := by
  induction ws generalizing found cs with
  | nil => rfl
  | cons x ws ih =>
    cases cs with
    | nil => rfl
    | cons c cs =>
      have hx : guideColumn (x, c) = (x.guide && c.listings != 0) := rfl
      rw [lastGuideOf, List.zip_cons_cons, List.filter_cons, ih, hx]
      split
      · rw [lastOf_cons]
      · rfl

/-- The codes of a guide that fit are those whose cells end within the page width (R83). -/
theorem fitGuide_eq (width cw x : Nat) (text : Text) : fitGuide width cw x text =
    text.take ((List.range text.length).countP fun n => x + (n + 1) * cw ≤ width) := by
  induction text generalizing x with
  | nil => rfl
  | cons c cs ih =>
    have hshift : ∀ n, x + (n + 1 + 1) * cw = x + cw + (n + 1) * cw := fun n => by rw [Nat.succ_mul (n + 1)]; omega
    simp only [List.length_cons, List.range_succ_eq_map, List.countP_cons, List.countP_map, Function.comp_def, Nat.succ_eq_add_one,
      hshift, Nat.zero_add, Nat.one_mul, decide_eq_true_eq]
    unfold fitGuide
    by_cases hx : x + cw ≤ width
    · rw [if_pos hx, if_pos hx, List.take_succ_cons, ih]
    · have hnone : (List.range cs.length).countP (fun n => decide (x + cw + (n + 1) * cw ≤ width)) = 0 := by
        rw [List.countP_eq_zero]
        intro n _
        have := Nat.zero_le ((n + 1) * cw)
        simp only [decide_eq_true_eq]
        omega
      rw [if_neg hx, if_neg hx, hnone]
      rfl

/-- A guide is placed with the codes that fit, or absent where none does (R83). -/
theorem placeGuide_eq (l : Layout) (x : Nat) (text : Text) : placeGuide l x text =
    let kept := text.take ((List.range text.length).countP fun n => x + (n + 1) * l.cellWidth ≤ l.width)
    if kept = [] then none else some ⟨kept, x⟩ := by
  rw [placeGuide, ← fitGuide_eq]
  cases fitGuide l.width l.cellWidth x text <;> simp

/-! ## The form end -/

/-- A form end without an open page ends a blank form (R40, R41). -/
theorem formEnd_blank (ho : w.st.openPage = none) : formEnd t w = ⟨{ w.st with
    line := 1, overflow := false, page := nextPage w.st.page
    counters := { w.st.counters with closed := w.st.counters.closed + 1 }
    reports := w.st.reports.drop (w.st.reports.length + 1 - 8) ++ [w.st.blankSummary]
    causes := { w.st.causes with reportAdded := true } }, w.noted, true⟩ := by
  rw [formEnd]
  split
  · rename_i p hp
    rw [ho] at hp
    cases hp
  · rfl

/-- A form end with an open page raises the page's seam breaks and files the finished page at the queue's tail (R38, R82). -/
theorem formEnd_page {p : Page} (ho : w.st.openPage = some p) :
    let raised := w.raiseAll t.table (pageSeams t p w.st)
    formEnd t w = ⟨{ raised.st with
      line := 1, overflow := false, page := nextPage w.st.page, openPage := none, carry := pageCarry t p w.st
      counters := { w.st.counters with closed := w.st.counters.closed + 1 }
      queue := w.st.queue ++
        [Page.finish t.layout false { p with seamBreaks := p.seamBreaks + (pageSeams t p w.st).length }] },
      raised.noted, true⟩ := by
  have keeps : ∀ {α : Type} (f : Station → α), (∀ e st, f (Station.raise t.table e st) = f st) →
      f (w.raiseAll t.table (pageSeams t p w.st)).st = f w.st := fun f hf => Work.raiseAll_proj hf _ _
  simp only [formEnd, ho, closePage, completePage_eq, Station.countPage, keeps Station.page fun e st => st.raise_page t.table e,
    keeps Station.counters fun e st => st.raise_counters t.table e, keeps Station.queue fun e st => st.raise_queue t.table e]

/-- Settles O60: the two kinds of form end, the closed page's parts by the columns they come from. -/
theorem formEndClosesThePage : Obligations.FormEndClosesThePage := by
  refine ⟨fun t w ho => formEnd_blank ho, ?_⟩
  intro t w p ho r columns checked guided
  have hr : r = _ := formEnd_page ho
  have hreports : r.st.reports = w.st.reports := formEnd_reports ho
  have hcarry : pageCarry t p w.st = if t.coll.isNone then w.st.carry else match checked.getLast? with
      | none => w.st.carry
      | some x => x.2.lastKey := by
    unfold pageCarry lastOf
    split
    · rfl
    · show (checked.getLast?.map _).getD _ = _
      cases checked.getLast? <;> rfl
  have hlast : lastGuideOf none t.layout.windows p.columns = guided.getLast?.bind fun x => x.2.lastText :=
    (lastGuideOf_eq none _ _).trans (lastOf_none _ _)
  refine ⟨by rw [hr], by rw [hr], by rw [hr], by rw [hr], by rw [hr], by rw [hr]; rfl, hreports, by rw [hr]; exact hcarry,
    Page.finish t.layout false { p with seamBreaks := p.seamBreaks + (pageSeams t p w.st).length }, by rw [hr],
    rfl, rfl, rfl, rfl, rfl, rfl, rfl, rfl, rfl, rfl, rfl, rfl, rfl, firstGuideOf_eq _ _, hlast, ?_⟩
  intro l numbered before broken seams raised fits
  have hfits : ∀ x, placeGuide l x = fits x := fun x => funext (placeGuide_eq l x)
  rw [hr]
  exact ⟨rfl, rfl, rfl, rfl, rfl, rfl, rfl, rfl,
    congrArg (Option.bind (firstGuideOf t.layout.windows p.columns)) (hfits _),
    congrArg (Option.bind (lastGuideOf none t.layout.windows p.columns)) (funext fun text => congrFun (hfits _) text)⟩

end Sys2Proof.Machine
end

section
/-! SUPPORT. A MOVE with nothing composed: blank forms one after another (R40, R41, R43) and the carriage alone. -/

namespace Sys2Proof.Machine

variable {s : State} {h : Head} {t : Tools} {st : Station} {w : Work} {α : Type}

/-! ## Blank forms (R23, R40) -/

/-- A list kept to its last 8 and added to is the whole list added to and kept to its last 8 (R23). -/
theorem capped_append (l : List α) (x : α) :
    (l.drop (l.length - 8)).drop ((l.drop (l.length - 8)).length + 1 - 8) ++ [x] = (l ++ [x]).drop (l.length + 1 - 8) := by
  rw [List.drop_drop, List.length_drop, List.drop_append_of_le_length (by omega)]
  congr 2
  omega

/-- The summaries of `n` blank forms, the page number advancing (R24, R40, R41). -/
def Station.blanks (n : Nat) (st : Station) : List Summary :=
  (List.range n).map fun j => ⟨st.job, nextPage^[j] st.page, 0, 0, 0, 0, none, none, 0, true, false, false, false⟩

@[simp] theorem Station.blanks_length (n : Nat) (st : Station) : (st.blanks n).length = n := by simp [Station.blanks]

theorem Station.blanks_succ (n : Nat) (st : Station) :
    st.blanks (n + 1) = st.blanks n ++ [{ st with page := nextPage^[n] st.page }.blankSummary] := by
  rw [Station.blanks, List.range_succ, List.map_append]
  rfl

/-- The station after `n` blank forms, at least one. -/
def Station.afterBlanks (n : Nat) (st : Station) : Station :=
  { st with
    line := 1, overflow := false, page := nextPage^[n] st.page
    counters := { st.counters with closed := st.counters.closed + BitVec.ofNat 32 n }
    reports := (st.reports ++ st.blanks n).drop (st.reports.length + n - 8)
    causes := { st.causes with reportAdded := true } }

/-- One blank form more. -/
theorem formEnd_afterBlanks (ho : st.openPage = none) (n : Nat) (noted closed : Bool) :
    formEnd t ⟨st.afterBlanks n, noted, closed⟩ = ⟨st.afterBlanks (n + 1), noted, true⟩ := by
  have hreports : (st.afterBlanks n).reports.drop ((st.afterBlanks n).reports.length + 1 - 8) ++
      [(st.afterBlanks n).blankSummary] = (st.afterBlanks (n + 1)).reports := by
    have hcap := capped_append (st.reports ++ st.blanks n) (st.afterBlanks n).blankSummary
    rw [List.length_append, Station.blanks_length] at hcap
    rw [Station.afterBlanks, Station.afterBlanks, Station.blanks_succ, ← List.append_assoc]
    exact hcap
  have hclosed : (st.afterBlanks n).counters.closed + 1 = st.counters.closed + BitVec.ofNat 32 (n + 1) := by
    simp [Station.afterBlanks, BitVec.ofNat_add, BitVec.add_assoc]
  have hpage : nextPage (st.afterBlanks n).page = nextPage^[n + 1] st.page := (Function.iterate_succ_apply' ..).symm
  rw [formEnd_blank ho, hreports, hclosed, hpage]
  rfl

/-- Form ends without a page to close end as many blank forms. -/
theorem formEnds_blank (ho : w.st.openPage = none) (n : Nat) :
    (formEnd t)^[n + 1] w = ⟨w.st.afterBlanks (n + 1), w.noted, true⟩ := by
  induction n with
  | zero =>
    rw [Function.iterate_one, formEnd_blank ho, Station.afterBlanks, Station.blanks_succ, ← List.append_assoc,
      List.drop_append_of_le_length (by simp [Station.blanks])]
    simp [Station.blanks]
  | succ n ih => rw [Function.iterate_succ_apply', ih, formEnd_afterBlanks ho]

/-- A single blank form drops the oldest of 8 summaries. -/
theorem Station.afterBlanks_one_reports (hr : st.reports.length ≤ 8) : (st.afterBlanks 1).reports =
    (if st.reports.length = 8 then st.reports.tail else st.reports) ++ [st.blankSummary] := by
  rw [Station.afterBlanks, Station.blanks_succ, ← List.append_assoc,
    List.drop_append_of_le_length (by simp [Station.blanks])]
  split
  · rename_i h8
    simp [Station.blanks, h8]
  · have h0 : st.reports.length + 1 - 8 = 0 := by omega
    simp [Station.blanks, h0]

/-! ## The carriage alone -/

/-- A SPACE that stays on the form steps line by line (R34, R35). -/
theorem Course.iterate_below {x : Tape} {n k : Nat} (b : Bool) (hk : n + k ≤ x.formLength) :
    (Course.next x)^[k] ⟨0, n, b⟩ = ⟨0, n + k, b || (List.range k).any fun j => x.overflows (n + 1 + j)⟩ := by
  induction k with
  | zero => simp
  | succ k ih =>
    rw [Function.iterate_succ_apply', ih (by omega), Course.next, if_pos (show n + k < x.formLength by omega),
      List.range_succ, List.any_append, Bool.or_assoc]
    simp [Nat.add_assoc, Nat.add_comm 1 k]

theorem Station.afterLine_of_idle (hb : w.st.busy = false) :
    st.afterLine w = { w.st with expected := !st.expected, idle := .off } := by
  have hn : ¬ (st.timerSetting ≠ 0 ∧ w.st.state = .ready ∧ w.st.busy = true) := by simp [hb]
  rw [Station.afterLine, if_neg hn]

/-- A READY station with nothing composed takes a MOVE without a slot, and it commits nothing. -/
theorem lineOrder_move_blank {free seq : Bool} {b : Byte} {ctl : Control} {x : Course} (hc : Control.ofByte b = some ctl)
    (hs : st.state = .ready) (hq : seq = st.expected) (hk : st.hasStrikes = false)
    (hcarry : carry t ctl.motion ⟨st, false, false⟩ = (commit t ⟨st, false, false⟩).along t x) :
    let done := Work.along t x ⟨{ st with strikes := emptyLine }, false, false⟩
    st.lineOrder t free seq b none = (st.afterLine done, Answer.ofWork done) := by
  have hneed : st.needsSlot t ctl.motion (ctl.bytesBefore []) = false := by
    cases hb : ctl.before <;> simp [Station.needsSlot, Control.bytesBefore, hb, hk, anyStrike]
  have hwork : lineWork t ctl none st = Work.along t x ⟨{ st with strikes := emptyLine }, false, false⟩ :=
    hcarry.trans (congrArg (Work.along t x) (commit_of_no_strikes hk))
  rw [hq, Station.lineOrder_taken hc hs none fun hn => absurd hn (Bool.eq_false_iff.mp hneed), takeLineOrder_eq, hwork]

/-- A course with form ends, nothing being composed, ends as many blank forms. -/
theorem along_blank (ho : st.openPage = none) (n line : Nat) (mark : Bool) :
    Work.along t ⟨n + 1, line, mark⟩ ⟨{ st with strikes := emptyLine }, false, false⟩ =
      ⟨{ st.afterBlanks (n + 1) with line := line, overflow := mark, strikes := emptyLine }, false, true⟩ :=
  congrArg (Work.atLine line mark)
    (formEnds_blank (t := t) (w := ⟨{ st with strikes := emptyLine }, false, false⟩) ho n)

section
variable {c : Byte} {ctl : Control} {line : Nat} {mark : Bool} (ha : s.accepts h) (hc : Control.ofByte c = some ctl)
  (hst : s.station h.station = st) (hs : st.state = .ready) (hq : h.seq = st.expected) (hk : st.hasStrikes = false)
  (ho : st.openPage = none)
include ha hc hst hs hq hk ho

/-- A MOVE with nothing composed that stays on the form. -/
theorem exec_move_within
    (hcarry : carry (s.library.tools st.sel) ctl.motion ⟨st, false, false⟩ =
      (commit (s.library.tools st.sel) ⟨st, false, false⟩).along (s.library.tools st.sel) ⟨0, line, mark⟩) :
    exec (.move h [c]) s = .next ((s.setStation h.station { st with
      line := line, overflow := mark, strikes := emptyLine, expected := !st.expected, idle := .off }).owe
        (leadOf h 0x02) .done) := by
  subst hst
  rw [exec_move ha (lineOrder_move_blank hc hs hq hk hcarry), Station.afterLine_of_idle]
  · rfl
  · exact (Station.busy_eq_false_iff _).mpr ⟨ho, Station.hasStrikes_of_emptyLine rfl⟩

/-- A MOVE with nothing composed that crosses the foot. -/
theorem exec_move_across {n : Nat}
    (hcarry : carry (s.library.tools st.sel) ctl.motion ⟨st, false, false⟩ =
      (commit (s.library.tools st.sel) ⟨st, false, false⟩).along (s.library.tools st.sel) ⟨n + 1, line, mark⟩) :
    exec (.move h [c]) s = .next ((s.setStation h.station { st.afterBlanks (n + 1) with
      line := line, overflow := mark, strikes := emptyLine, expected := !st.expected, idle := .off }).owe
        (leadOf h 0x02) { Answer.done with pageClosed := true }) := by
  subst hst
  rw [exec_move ha (lineOrder_move_blank hc hs hq hk hcarry), along_blank ho, Station.afterLine_of_idle]
  · rfl
  · exact (Station.busy_eq_false_iff _).mpr ⟨ho, Station.hasStrikes_of_emptyLine rfl⟩

end

/-- Settles O54: where each motion leads, by whether it crosses the foot. -/
theorem motionsMoveTheCarriage : Obligations.MotionsMoveTheCarriage := by
  intro s h c before m e t ha st hctl hready hseq hstrikes hopen hsel htape hreports done crossed
  have htools : (s.library.tools st.sel).tape = t := Library.tapeOf_eq hsel htape
  have led : ∀ {ends line : Nat} {mark : Bool}, leads t m st.line st.overflow ends line mark →
      carry (s.library.tools st.sel) m ⟨st, false, false⟩ =
        (commit (s.library.tools st.sel) ⟨st, false, false⟩).along (s.library.tools st.sel) ⟨ends, line, mark⟩ :=
    fun hl => carry_leads (htools ▸ hl)
  have within : ∀ {line : Nat} {mark : Bool}, carry (s.library.tools st.sel) m ⟨st, false, false⟩ =
      (commit (s.library.tools st.sel) ⟨st, false, false⟩).along (s.library.tools st.sel) ⟨0, line, mark⟩ →
      exec (.move h [c]) s = done { st with line := line, overflow := mark } :=
    exec_move_within ha hctl rfl hready hseq hstrikes hopen
  have across : ∀ {line : Nat} {mark : Bool}, carry (s.library.tools st.sel) m ⟨st, false, false⟩ =
      (commit (s.library.tools st.sel) ⟨st, false, false⟩).along (s.library.tools st.sel) ⟨1, line, mark⟩ →
      exec (.move h [c]) s = crossed line mark := by
    intro line mark hcarry
    have hone := Station.afterBlanks_one_reports hreports
    refine (exec_move_across ha hctl rfl hready hseq hstrikes hopen (n := 0) hcarry).trans ?_
    dsimp only [crossed]
    rw [hone]
    rfl
  refine ⟨fun n hm h1 _ hle => ?_, fun hm hl => ?_, fun n hm h1 _ hlow hhigh hover => ?_, fun k n hm hlt hle hch hnone => ?_,
    fun k n hm hnone h1 hle hch hfirst => ?_⟩
  · refine within ?_
    rw [hm, carry_space h1, htools, Course.iterate_below _ hle]
    rfl
  · refine across ?_
    have hnext : Course.next t ⟨0, st.line, st.overflow⟩ = ⟨1, 1, t.overflows 1⟩ := if_neg (by dsimp only; omega)
    rw [hm, carry_space (Nat.le_refl 1), htools, Function.iterate_one, hnext]
    rfl
  · intro ends line blanks
    have hends : 1 ≤ ends := (Nat.one_le_div_iff (by omega)).mpr (by omega)
    obtain ⟨j, hj⟩ := Nat.exists_eq_add_of_le' hends
    have hled := led (ends := ends) (.inl ⟨n, hm, h1, hlow, hhigh, rfl, rfl, (if_neg (by omega)).symm⟩)
    rw [hj] at hled
    refine (exec_move_across ha hctl rfl hready hseq hstrikes hopen hled).trans ?_
    rw [← hj]
    rfl
  · exact within (led (.inr ⟨k, hm, hch, hle, .inl ⟨rfl, rfl, hlt, hnone⟩⟩))
  · exact across (led (.inr ⟨k, hm, hch, hle, .inr ⟨rfl, rfl, h1, hfirst, hnone⟩⟩))

end Sys2Proof.Machine
end

section
/-! SUPPORT. The bounds of a station that every change keeps: strike lists (R52), report lists (R23) and page numbers (R1, R41). -/

namespace Sys2Proof.Machine

variable {s u : State} {i : StationId} {st : Station} {t : Tools} {w : Work}

/-! ## The pending line through a line's work (R52 to R54) -/

/-- No strike list of the line holds more than 3 strikes. -/
def thin (v : Vector Position 132) : Prop := ∀ p : Fin 132, v[p].strikes.length ≤ 3

theorem thin_emptyLine : thin emptyLine := fun p => by simp [emptyLine, Position.empty]

theorem strikesOf_length_le (o : Option DrumEntry) : (strikesOf o).length ≤ 1 := by
  cases o with
  | none => exact Nat.zero_le _
  | some x => cases x <;> simp [strikesOf]

/-- A strike joins a list of fewer than 3 alone, so the new line's lists hold at most 3 (R54). -/
theorem thin_struckLine (drum : DrumTable) (bytes : List Byte) {old : Vector Position 132} (h : thin old) :
    thin (struckLine drum bytes old) := by
  intro p
  rw [struckLine_get]
  split
  · exact h p
  · split
    · rename_i hroom
      have hnew := strikesOf_length_le (bytes[p.val]?.map (lookDrum drum))
      rw [List.length_append]
      omega
    · exact h p

theorem thin_printed (bytes : Option (List Byte)) (h : thin w.st.strikes) : thin (w.printed t bytes).st.strikes := by
  cases bytes with
  | none => exact h
  | some bs =>
    rw [Work.printed, Work.recorded_proj (f := Station.strikes) fun e st => st.raise_strikes t.table e]
    exact thin_struckLine _ _ h

@[simp] theorem formEnd_strikes (t : Tools) (w : Work) : (formEnd t w).st.strikes = w.st.strikes := by
  unfold formEnd
  cases w.st.openPage with
  | none => rfl
  | some p => exact closePage_strikes t false p w

theorem along_strikes (c : Course) (w : Work) : (w.along t c).st.strikes = w.st.strikes := by
  have ends : ∀ n, ((formEnd t)^[n] w).st.strikes = w.st.strikes := fun n => by
    induction n with
    | zero => rfl
    | succ n ih => rw [Function.iterate_succ_apply', formEnd_strikes, ih]
  exact ends c.ends

/-- A motion that leaves the line empties it, and another keeps it (R33). -/
theorem carry_strikes (m : Motion) (w : Work) :
    (carry t m w).st.strikes = if m.commits t.tape then emptyLine else w.st.strikes := by
  unfold carry
  split
  · cases m with
    | space k => exact (congrArg (·.st.strikes) (spaceSteps_along k _)).trans (along_strikes _ _)
    | skip k =>
      obtain ⟨c, -, hc⟩ := skipTo_along (t := t) k (commit t w)
      exact (congrArg (·.st.strikes) hc).trans (along_strikes _ _)
  · cases m with
    | space k => rfl
    | skip k => exact w.st.raise_strikes _ _

theorem thin_carry (m : Motion) (h : thin w.st.strikes) : thin (carry t m w).st.strikes := by
  rw [carry_strikes]
  split
  · exact thin_emptyLine
  · exact h

theorem thin_lineWork (c : Control) (bytes : Option (List Byte)) (h : thin st.strikes) :
    thin (lineWork t c bytes st).st.strikes := by
  cases hb : c.before with
  | true =>
    rw [lineWork_before hb]
    exact thin_printed bytes (thin_carry _ h)
  | false =>
    rw [lineWork_after hb]
    exact thin_carry _ (thin_printed bytes h)

/-! ## Reports and page numbers (R23, R41) -/

/-- A list cut to make room for one more holds at most 8 with it (R23). -/
theorem Station.addReport_length (x : Summary) (st : Station) : (st.addReport x).reports.length ≤ 8 := by
  simp only [Station.addReport, Config.reportCap, List.length_append, List.length_drop, List.length_singleton]
  omega

theorem nextPage_ne_zero (n : Half) : nextPage n ≠ 0 := by
  unfold nextPage
  split
  · decide
  · bv_omega

/-- At most 8 summaries stand in the report list, and the page number is at least 1. -/
def Station.numbered (st : Station) : Prop := st.reports.length ≤ 8 ∧ st.page ≠ 0

theorem lineStable_numbered (t : Tools) : LineStable t Station.numbered where
  raise e st h := by simpa [Station.numbered] using h
  strikes _ _ h := h
  lines _ _ h := h
  place _ _ _ h := h
  close _ _ _ h := h
  blank st h := ⟨st.addReport_length _, h.2⟩
  count st h := ⟨h.1, nextPage_ne_zero st.page⟩
  carriage _ _ _ h := h

/-! ## The law of one station -/

/-- The laws of R52 and R23 at a station. -/
def Station.bounded (st : Station) : Prop := thin st.strikes ∧ st.numbered

theorem Station.bounded_iff (st : Station) : st.bounded ↔ st.strikesBounded = true ∧ st.reportsBounded = true := by
  have hthin : thin st.strikes ↔ st.strikesBounded = true := by
    simp only [Station.strikesBounded, List.all_eq_true, decide_eq_true_eq, Vector.mem_toList_iff, Vector.mem_iff_getElem]
    constructor
    · rintro h _ ⟨n, hn, rfl⟩
      exact h ⟨n, hn⟩
    · exact fun h p => h _ ⟨p.val, p.isLt, rfl⟩
  rw [Station.bounded, hthin, Station.reportsBounded, Bool.and_eq_true, decide_eq_true_iff, bne_iff_ne]
  exact Iff.rfl

theorem Station.bounded_powerOn : Station.powerOn.bounded :=
  ⟨thin_emptyLine, by simp [Station.numbered, Station.powerOn]⟩

theorem Station.bounded_raise (table : Dispositions) (e : CondEntry) (h : st.bounded) : (st.raise table e).bounded := by
  simpa [Station.bounded, Station.numbered] using h

theorem Station.bounded_addReport (x : Summary) (h : st.bounded) : (st.addReport x).bounded :=
  ⟨h.1, st.addReport_length x, h.2.2⟩

theorem Station.bounded_drainTest (h : st.bounded) : st.drainTest.bounded := by
  rcases st.drainTest_cases with he | ⟨-, -, he⟩ <;> rw [he] <;> exact h

theorem Station.bounded_finishJob (h : st.bounded) : st.finishJob.bounded := by
  rcases st.finishJob_cases with ⟨-, he⟩ | ⟨-, -, he⟩ | ⟨-, -, he⟩ <;> rw [he] <;> exact h

theorem Station.bounded_addHolds (x : Holds) (h : st.bounded) : (st.addHolds x).bounded := by
  rcases st.addHolds_cases x with ⟨he, -⟩ | ⟨he, -⟩ <;> rw [he] <;> exact h

theorem Station.bounded_removeHolds (x : Holds) (h : st.bounded) : (st.removeHolds x).bounded := by
  rcases st.removeHolds_cases x with ⟨he, -⟩ | ⟨he, -⟩ <;> rw [he]
  · rw [Station.refreshIdle_eq]
    exact h
  · exact h

theorem Station.bounded_reset (b : Bool) (st : Station) : (st.reset b).bounded := by
  rw [Station.reset_eq]
  exact ⟨thin_emptyLine, by simp [Station.numbered]⟩

theorem StationChange.bounded (hc : StationChange s i st) (h : (s.station i).bounded) : st.bounded := by
  have ⟨hthin, hnumbered⟩ := h
  cases hc with
  | line c bytes => exact ⟨thin_lineWork c bytes hthin, (lineStable_numbered _).lineWork c bytes hnumbered⟩
  | raise e => exact Station.bounded_raise _ e h
  | beginJob job page hp => exact ⟨hthin, hnumbered.1, hp⟩
  | endJob =>
    refine Station.bounded_finishJob ⟨?_, (lineStable_numbered _).endJobWork hnumbered⟩
    rw [(endJobWork_not_busy _ _).2]
    exact thin_emptyLine
  | hold => exact Station.bounded_addHolds _ h
  | release => exact Station.bounded_removeHolds (st := { s.station i with record := _ }) _ h
  | panel on =>
    cases on with
    | true => exact Station.bounded_addHolds _ h
    | false => exact Station.bounded_removeHolds _ h
  | reset on => exact Station.bounded_reset on _
  | report n => exact ⟨hthin, (List.length_drop.trans_le (Nat.sub_le ..)).trans hnumbered.1, hnumbered.2⟩
  | imaged => exact Station.bounded_drainTest (Station.bounded_addReport _ h)
  | refused => exact Station.bounded_drainTest (Station.bounded_raise _ _ (Station.bounded_addReport _ h))
  | _ => exact h

/-! ## The law of the whole part -/

/-- The laws of R52 and R23 at every station, and page numbers of at least 1 in the park slots (R15). -/
structure State.Bounded (s : State) : Prop where
  station : ∀ i, (s.station i).bounded
  park : ∀ (k : Fin 4) r, s.parks[k] = some r → r.page ≠ 0

theorem State.bounded_iff (s : State) : (s.strikesBounded && s.reportsBounded) = true ↔ s.Bounded := by
  have hpark : parkPageOk = Option.all fun r => r.page != 0 := funext fun o => by cases o <;> rfl
  have hstations : (∀ i, (s.station i).bounded) ↔ s.strikesBounded = true ∧ s.allStations Station.reportsBounded = true := by
    simp only [State.strikesBounded, State.allStations_iff, Station.bounded_iff, forall_and]
  rw [Bool.and_eq_true, State.reportsBounded, Bool.and_eq_true, ← and_assoc, ← hstations, hpark, forall_parks_iff]
  simp only [bne_iff_ne]
  exact ⟨fun h => ⟨h.1, h.2⟩, fun h => ⟨h.station, h.park⟩⟩

theorem State.Bounded.setStation (h : s.Bounded) (hs : st.bounded) : (s.setStation i st).Bounded where
  station := State.forall_setStation h.station hs
  park := h.park

theorem Change.bounded (hc : Change s u) (h : s.Bounded) : u.Bounded := by
  cases hc with
  | rest ha => exact ⟨fun i => State.station_congr ha.stations i ▸ h.station i, ha.parks ▸ h.park⟩
  | station hc => exact h.setStation (hc.bounded (h.station _))
  | select i d t l c =>
    have hselect : ((s.station i).select ((s.station i).sel.choose d t l c)).bounded := by
      rw [Station.select_eq]
      exact h.station i
    obtain ⟨hstation, hpark⟩ := h.setStation hselect
    exact ⟨hstation, hpark⟩
  | park i k =>
    obtain ⟨hstrikes, hreports, hpage⟩ := h.station i
    have hparked : (s.station i).parked.bounded := ⟨thin_emptyLine, hreports, by simp [Station.parked]⟩
    refine ⟨(h.setStation hparked).station, forall_parks_set k h.park fun r hr => ?_⟩
    cases hr
    exact hpage
  | resume i k r line hs hb hk =>
    have hresumed : ((s.station i).resumed r line).bounded := ⟨thin_emptyLine, (h.station i).2.1, h.park k r hk⟩
    exact ⟨(h.setStation hresumed).station, forall_parks_set k h.park fun _ hr => by cases hr⟩
  | emptyPark k => exact ⟨h.station, forall_parks_set k h.park fun _ hr => by cases hr⟩
  | powerOn =>
    refine ⟨fun i => (State.reset_station i).symm ▸ Station.bounded_powerOn, fun k r hk => ?_⟩
    simp [State.reset] at hk
  | _ => exact ⟨h.station, h.park⟩

/-- Settles O4: strike lists, report lists and page numbers stand in their bounds through every change. -/
theorem stepKeepsBounds : Obligations.StepKeepsBounds := by
  intro s t hs ht
  rw [State.bounded_iff] at hs ⊢
  exact step_keeps (law := State.Bounded) (fun _ _ h => ⟨h.station, h.park⟩) (fun _ _ => Change.bounded) hs ht

end Sys2Proof.Machine
end

section
/-! SUPPORT. The cell record of a strike list (R57) by its distinct glyphs. -/

namespace Sys2Proof.Machine

variable {l : List Strike} {g k : Code}

/-! ## Classification (R57) -/

theorem classify_of_none (h : distinct (glyphsOf l) = []) : classify l = ⟨none, none, false, l.contains .underscore⟩ := by
  simp only [classify, h]

theorem classify_of_one (h : distinct (glyphsOf l) = [g]) :
    classify l = ⟨some g, none, 2 ≤ (glyphsOf l).length, l.contains .underscore⟩ := by
  simp only [classify, h]

theorem classify_of_two (h : distinct (glyphsOf l) = [g, k]) :
    classify l = ⟨some g, some k, false, l.contains .underscore⟩ := by
  simp only [classify, h]

theorem classify_of_more {m : Code} {gs : List Code} (h : distinct (glyphsOf l) = g :: k :: m :: gs) :
    classify l = ⟨some g, some k, false, false⟩ := by
  simp only [classify, h]

/-- Settles O50: the distinct glyphs of each kind of list, in arrival order. -/
theorem strikeListsClassify : Obligations.StrikeListsClassify := by
  intro l _ under glyphs
  have hunder : l.contains .underscore = under := List.contains_eq_mem ..
  have hglyphs : glyphsOf l = glyphs := rfl
  rw [← hunder, ← hglyphs]
  refine ⟨fun h => ?none, fun x h => ?single, fun x h => ?heavy, fun x y hxy h => ?overstrike,
    fun x y z hxy hxz hyz h => ?clash⟩
  case none => exact classify_of_none (by rw [h]; rfl)
  case single => simpa [h] using classify_of_one (l := l) (g := x) (by rw [h]; rfl)
  case heavy =>
    have hd : distinct (glyphsOf l) = [x] := by rcases h with h | h <;> simp [h, distinct]
    rw [classify_of_one hd]
    rcases h with h | h <;> simp [h]
  case overstrike =>
    refine classify_of_two ?_
    rcases h with h | h | h | h <;> simp [h, distinct, hxy, hxy.symm]
  case clash =>
    refine classify_of_more (m := z) (gs := []) ?_
    simp [h, distinct, hxy.symm, hxz.symm, hyz.symm]

end Sys2Proof.Machine
end

section
/-! SUPPORT. The commit as one record (R56): where the cells of a line are placed or dropped (R73 to R77), what it raises, and
the page it files the line on (R78 to R80, R92 to R97). -/

namespace Sys2Proof.Machine

variable {t : Tools} {w : Work} {st : Station}

/-! ## Clashing strike lists (R58) -/

theorem mem_distinct {g : Code} {gs : List Code} : g ∈ distinct gs ↔ g ∈ gs := by
  induction gs with
  | nil => simp [distinct]
  | cons a as ih => by_cases h : g = a <;> simp [distinct, ih, h]

theorem nodup_distinct (gs : List Code) : (distinct gs).Nodup := by
  induction gs with
  | nil => exact List.nodup_nil
  | cons a as ih => exact List.nodup_cons.mpr ⟨by simp, ih.filter _⟩

theorem distinct_length (gs : List Code) : (distinct gs).length = gs.dedup.length := by
  refine List.Perm.length_eq ((List.perm_ext_iff_of_nodup (nodup_distinct gs) gs.nodup_dedup).mpr fun g => ?_)
  rw [mem_distinct, List.mem_dedup]

theorem clashes_eq (l : List Strike) : clashes l = decide (3 ≤ (glyphsOf l).dedup.length) := by
  rw [clashes, distinct_length]

/-! ## The print positions of a line, numbered from 1 -/

theorem zipIdx_map_toList {α β : Type} {n : Nat} (f : α → β) (v : Vector α n) :
    (v.toList.map f).zipIdx 1 = (List.finRange n).map fun p => (f v[p], p.val + 1) :=
  List.ext_getElem (by simp) fun i _ _ => by simp [Nat.add_comm]

theorem lowestClash_eq_find (p : Nat) (cs : List Position) :
    lowestClash p cs = ((cs.zipIdx p).find? fun x => clashes x.1.strikes).map Prod.snd := by
  induction cs generalizing p with
  | nil => rfl
  | cons c cs ih =>
    rw [lowestClash, List.zipIdx_cons, List.find?_cons, ih]
    cases clashes c.strikes <;> rfl

/-- The lowest position at which three distinct glyphs stand (R58). -/
def clashAt (v : Vector Position 132) : Option (Fin 132) :=
  (List.finRange 132).find? fun p => clashes v[p].strikes

theorem lowestClash_eq (v : Vector Position 132) :
    lowestClash 1 v.toList = ((clashAt v).map Fin.val).map (· + 1) := by
  have hpositions := zipIdx_map_toList id v
  rw [List.map_id] at hpositions
  rw [lowestClash_eq_find, hpositions, List.find?_map, Option.map_map, Option.map_map]
  rfl

/-! ## Placed and dropped cells (R73 to R77) -/

theorem windowAt_eq (p i : Nat) (ws : List Window) : windowAt p i ws =
    (ws.findIdx? fun x => x.covers p).bind fun k => ws[k]?.map fun x => (k + i, x) := by
  induction ws generalizing i with
  | nil => rfl
  | cons x ws ih =>
    rw [windowAt, List.findIdx?_cons]
    split
    · simp
    · rw [ih, Option.bind_map]
      refine congrArg (Option.bind _) (funext fun k => ?_)
      simp only [Function.comp_apply, List.getElem?_cons_succ, Nat.add_right_comm k 1 i, Nat.add_assoc]

/-- A position's cell on the plate, if it is not empty, a window holds the position, and it fits (R75). -/
def Layout.placedAt (l : Layout) (x : Cell × Nat) : Option PlacedCell :=
  if x.1.isEmpty then none
  else (windowAt x.2 0 l.windows).bind fun y =>
    if l.plateX y.2 x.2 + l.cellWidth ≤ l.width then some ⟨l.plateX y.2 x.2, x.1⟩ else none

/-- A position whose cell is dropped at the edge, with its window (R75, R77). -/
def Layout.droppedAt (l : Layout) (x : Cell × Nat) : Option (Nat × Nat) :=
  if x.1.isEmpty then none
  else (windowAt x.2 0 l.windows).bind fun y =>
    if l.width < l.plateX y.2 x.2 + l.cellWidth then some (x.2, y.1) else none

theorem placeCells_eq (l : Layout) (p : Nat) (cells : List Cell) : placeCells l p cells =
    ((cells.zipIdx p).filterMap l.placedAt, (cells.zipIdx p).findSome? l.droppedAt) := by
  induction cells generalizing p with
  | nil => rfl
  | cons c cs ih =>
    simp only [placeCells, List.zipIdx_cons, List.filterMap_cons, List.findSome?_cons, Layout.placedAt, Layout.droppedAt, ih]
    cases c.isEmpty with
    | true => rfl
    | false =>
      cases windowAt p 0 l.windows with
      | none => rfl
      | some y =>
        by_cases hfit : l.plateX y.2 p + l.cellWidth ≤ l.width
        · have hlt : ¬ l.width < l.plateX y.2 p + l.cellWidth := Nat.not_lt.mpr hfit
          simp [hfit, hlt]
        · have hlt : l.width < l.plateX y.2 p + l.cellWidth := Nat.lt_of_not_le hfit
          simp [hfit, hlt]

theorem insertByX_eq (a : PlacedCell) (l : List PlacedCell) : insertByX a l = l.orderedInsert (fun a b => a.x ≤ b.x) a := by
  induction l with
  | nil => rfl
  | cons b bs ih => rw [insertByX, List.orderedInsert_cons, ih]

theorem sortByX_eq (l : List PlacedCell) : sortByX l = l.insertionSort fun a b => a.x ≤ b.x :=
  congrArg (fun f => l.foldr f []) (funext fun a => funext (insertByX_eq a))

theorem sortByX_perm (l : List PlacedCell) : (sortByX l).Perm l := sortByX_eq l ▸ List.perm_insertionSort _ l

theorem sortByX_pairwise (l : List PlacedCell) : (sortByX l).Pairwise fun a b => a.x ≤ b.x := by
  have htotal : Std.Total fun a b : PlacedCell => a.x ≤ b.x := ⟨fun a b => Nat.le_total a.x b.x⟩
  have htrans : IsTrans PlacedCell fun a b => a.x ≤ b.x := ⟨fun _ _ _ => Nat.le_trans⟩
  exact sortByX_eq l ▸ List.pairwise_insertionSort _ l

/-! ## Raisings do not see the counters -/

/-- The counters replaced. -/
def Work.counting (c : Counters) (w : Work) : Work := { w with st := { w.st with counters := c } }

theorem Station.applyDisposition_counting (e : CondEntry) (c : Counters) (st : Station) (d : Disposition) :
    Station.applyDisposition e { st with counters := c } d = { st.applyDisposition e d with counters := c } := by
  cases d with
  | ignore => rfl
  | note => rfl
  | hold =>
    by_cases hc : st.holds.condition = true
    · simp [Station.applyDisposition, Station.noteEntry, Station.stopWith, hc]
    · by_cases hr : st.state = .ready <;> simp [Station.applyDisposition, Station.noteEntry, Station.addHolds, hc, hr]
  | stop => rfl

theorem Station.raise_counting (table : Dispositions) (e : CondEntry) (c : Counters) (st : Station) :
    Station.raise table e { st with counters := c } = { st.raise table e with counters := c } := by
  by_cases hs : st.state = .stopped
  · have hraise : st.raise table e = st.counted e.kind := if_pos hs
    rw [hraise]
    exact if_pos hs
  · have hraise : st.raise table e = (st.counted e.kind).applyDisposition e table[e.kind.number] := if_neg hs
    rw [hraise, ← Station.applyDisposition_counting]
    exact if_neg hs

theorem Work.raise_counting (table : Dispositions) (e : CondEntry) (c : Counters) (w : Work) :
    (w.counting c).raise table e = (w.raise table e).counting c :=
  congrArg (fun st => (⟨st, w.noted || w.st.raiseNotes table e.kind, w.closed⟩ : Work)) (w.st.raise_counting table e c)

theorem Work.raiseAll_counting (table : Dispositions) (es : List CondEntry) (c : Counters) (w : Work) :
    (w.counting c).raiseAll table es = (w.raiseAll table es).counting c := by
  induction es generalizing w with
  | nil => rfl
  | cons e es ih => exact (congrArg (Work.raiseAll table es) (w.raise_counting table e c)).trans (ih _)

theorem raiseOutcome_counting (i : Nat) (x : Window) (o : Option Ordering) (c : Counters) (w : Work) :
    raiseOutcome t i x o (w.counting c) = (raiseOutcome t i x o w).counting c := by
  unfold raiseOutcome
  split
  · exact w.raise_counting ..
  · exact w.raise_counting ..
  · rfl

theorem visitWindows_counting (cells : List Cell) (c : Counters) (i : Nat) (ws : List Window) (cs : List ColumnRecord)
    (w : Work) : visitWindows t cells i ws cs (w.counting c) =
      ((visitWindows t cells i ws cs w).1, (visitWindows t cells i ws cs w).2.counting c) := by
  induction ws generalizing i cs w with
  | nil => rfl
  | cons x ws ih =>
    cases cs with
    | nil => rfl
    | cons k cs =>
      simp only [visitWindows]
      split
      · rw [raiseOutcome_counting, ih]
        rfl
      · rw [ih]

/-! ## What the visit of the windows leaves (R92, R96) -/

theorem visitWindows_st {α : Type} {f : Station → α} (hf : ∀ e st, f (Station.raise t.table e st) = f st)
    (cells : List Cell) (i : Nat) (ws : List Window) (cs : List ColumnRecord) (w : Work) :
    f (visitWindows t cells i ws cs w).2.st = f w.st :=
  visitWindows_keeps (Q := fun x => f x.st = f w.st) (fun e x h => (hf e x.st).trans h) cells ws cs i w rfl

theorem visitWindows_columns_length (cells : List Cell) (i : Nat) (ws : List Window) (cs : List ColumnRecord) (w : Work) :
    (visitWindows t cells i ws cs w).1.columns.length = cs.length := by
  induction ws generalizing i cs w with
  | nil => rfl
  | cons x ws ih =>
    cases cs with
    | nil => rfl
    | cons k cs =>
      simp only [visitWindows]
      split <;> simp [ih]

/-- The line was checked if it is a listing in a window with CHECK (R96). -/
theorem visitWindows_checked (cells : List Cell) (i : Nat) (ws : List Window) (cs : List ColumnRecord) (w : Work) :
    (visitWindows t cells i ws cs w).1.checked = (ws.zip cs).any fun x => x.1.check && isListing x.1 cells := by
  induction ws generalizing i cs w with
  | nil => rfl
  | cons x ws ih =>
    cases cs with
    | nil => rfl
    | cons k cs =>
      simp only [visitWindows, List.zip_cons_cons, List.any_cons]
      split
      · rename_i hl
        rw [hl, Bool.and_true, ih]
      · rename_i hl
        rw [Bool.eq_false_iff.mpr hl, Bool.and_false, Bool.false_or, ih]

/-! ## A line taken by a page (R75 to R79) -/

/-- The plate row of a carriage line under the tables of a station (R72). -/
def Tools.row (t : Tools) (line : Nat) : Nat := plateRow t.layout t.tape.pitch line

/-- The lowest position dropped at the edge, with its window; none is below the foot (R76, R77). -/
def edgeDrop (t : Tools) (cells : List Cell) (line : Nat) : Option (Nat × Nat) :=
  if t.layout.depth < t.row line then none else (placeCells t.layout 1 cells).2

/-- FOOT CLIP, or else EDGE CLIP (R76, R77). -/
def clipEntries (t : Tools) (cells : List Cell) (st : Station) : List CondEntry :=
  (if t.layout.depth < t.row st.line then [st.entry .footClip none none] else []) ++
    (edgeDrop t cells st.line).toList.map fun x => st.entry .edgeClip (some x.1) (some x.2)

theorem clipEntries_below (cells : List Cell) (h : t.layout.depth < t.row st.line) :
    clipEntries t cells st = [st.entry .footClip none none] := by
  simp only [clipEntries, edgeDrop, h, if_true]
  rfl

theorem clipEntries_above (cells : List Cell) (h : ¬ t.layout.depth < t.row st.line) :
    clipEntries t cells st =
      (placeCells t.layout 1 cells).2.toList.map fun x => st.entry .edgeClip (some x.1) (some x.2) := by
  simp only [clipEntries, edgeDrop, h, if_false, List.nil_append]

/-- The line record a committed line files, if it files one (R75 step 4, R78). -/
def lineRecords (t : Tools) (cells : List Cell) (line : Nat) (breaks : List Nat) : List LineRecord :=
  if t.layout.depth < t.row line ∨ (placeCells t.layout 1 cells).1 = [] then []
  else [⟨line, t.row line, sortByX (placeCells t.layout 1 cells).1, breaks⟩]

/-- 1 if the line was a listing in a window with CHECK (R96). -/
def Visit.rise (v : Visit) : Nat := if v.checked then 1 else 0

/-- The page with the line on it. -/
def Page.taken (t : Tools) (cells : List Cell) (line : Nat) (v : Visit) (o : Page) : Page :=
  { o with
    lines := o.lines ++ lineRecords t cells line v.breaks
    columns := v.columns
    listings := o.listings + v.rise
    clipped := o.clipped || decide (t.layout.depth < t.row line) || (edgeDrop t cells line).isSome }

theorem sortByX_eq_nil (l : List PlacedCell) : sortByX l = [] ↔ l = [] := by
  constructor
  · intro h
    exact List.nil_perm.mp (h ▸ sortByX_perm l)
  · rintro rfl
    rfl

theorem Page.file_eq (cells : List Cell) (line : Nat) (breaks : List Nat) (o : Page) :
    o.file line (t.row line) (if t.layout.depth < t.row line then [] else sortByX (placeCells t.layout 1 cells).1) breaks =
      { o with lines := o.lines ++ lineRecords t cells line breaks } := by
  unfold Page.file lineRecords
  by_cases hfoot : t.layout.depth < t.row line
  · simp [hfoot]
  · simp only [hfoot, if_false, false_or, List.isEmpty_iff, sortByX_eq_nil]
    split
    · simp
    · rfl

/-- The visit of the windows by a line that the page `o` takes (R92). -/
def lineVisit (t : Tools) (cells : List Cell) (o : Page) (w : Work) : Visit × Work :=
  visitWindows t cells 0 t.layout.windows o.columns (w.raiseAll t.table (clipEntries t cells w.st))

/-- Taking a line raises the clips and what Order Check finds, puts the line on the page and counts a checked listing. -/
theorem takeLine_eq (cells : List Cell) (o : Page) (w : Work) : takeLine t cells o w =
    { (lineVisit t cells o w).2 with st := { (lineVisit t cells o w).2.st with
      openPage := some (o.taken t cells w.st.line (lineVisit t cells o w).1)
      counters := { w.st.counters with
        listings := w.st.counters.listings + BitVec.ofNat 32 (lineVisit t cells o w).1.rise } } } := by
  have hcounters : (lineVisit t cells o w).2.st.counters = w.st.counters :=
    (visitWindows_st (f := Station.counters) (fun e st => st.raise_counters t.table e) ..).trans
      (Work.raiseAll_proj (f := Station.counters) (fun e st => st.raise_counters t.table e) ..)
  unfold takeLine
  lift_lets
  intro line y foot placed dropped w1 p1 v p2 st
  have hedge : dropped = edgeDrop t cells line := rfl
  have hw1 : w1 = w.raiseAll t.table (clipEntries t cells w.st) := by
    dsimp only [w1]
    by_cases hfoot : foot
    · rw [if_pos hfoot, clipEntries_below cells hfoot]
      rfl
    · rw [if_neg hfoot, clipEntries_above cells hfoot]
      cases placed.2 <;> rfl
  have hp1 : p1 = { o with clipped := o.clipped || decide foot || (edgeDrop t cells line).isSome } := by
    dsimp only [p1]
    rw [hedge]
    by_cases hfoot : foot <;> cases edgeDrop t cells line <;> simp [hfoot, Page.clip]
  have hv : v = lineVisit t cells o w := by
    dsimp only [v]
    rw [hw1, hp1]
    rfl
  have hp2 : o.taken t cells line v.1 = { p2 with listings := p2.listings + v.1.rise } := by
    have hfile : p2 = { p1 with columns := v.1.columns, lines := p1.lines ++ lineRecords t cells line v.1.breaks } :=
      Page.file_eq ..
    rw [hfile, hp1]
    rfl
  rw [← hv] at hcounters ⊢
  rw [hp2, ← hcounters, Visit.rise]
  split
  · rfl
  · have hzero : v.2.st.counters.listings + BitVec.ofNat 32 0 = v.2.st.counters.listings := BitVec.add_zero _
    rw [hzero]
    rfl

/-! ## The commit (R56) -/

/-- The cell records of the pending line, in print-position order (R57). -/
def Station.cells (st : Station) : List Cell := st.strikes.toList.map fun c => classify c.strikes

/-- The page a committed line goes to: the open one, or one opened for it (R80). -/
def Station.filingPage (l : Layout) (st : Station) : Page := st.openPage.getD (Page.opening st l)

/-- What a part of the filing page is: the open page's, or that of a page at its opening. -/
theorem Station.filingPage_part {α : Type} (l : Layout) (st : Station) (f : Page → α) :
    (st.openPage.map f).getD (f (Page.opening st l)) = f (st.filingPage l) := by
  unfold Station.filingPage
  cases st.openPage <;> rfl

/-- What placement finds in the pending line: STRIKE CLASH, then FOOT CLIP or EDGE CLIP (R58, R76, R77). -/
def commitEntries (t : Tools) (st : Station) : List CondEntry :=
  ((clashAt st.strikes).map Fin.val).toList.map (byteEntry st .strikeClash) ++ clipEntries t st.cells st

/-- The visit of the windows in a commit (R92). -/
def commitVisit (t : Tools) (w : Work) : Visit × Work :=
  visitWindows t w.st.cells 0 t.layout.windows (w.st.filingPage t.layout).columns
    (w.raiseAll t.table (commitEntries t w.st))

theorem clipEntries_same {x : Work} (cells : List Cell) (h : w.SameEntries x) :
    clipEntries t cells x.st = clipEntries t cells w.st := by
  unfold clipEntries Station.entry
  rw [h.page, h.line]

theorem lineVisit_counting (cells : List Cell) (o : Page) (c : Counters) (w : Work) :
    lineVisit t cells o (w.counting c) = ((lineVisit t cells o w).1, (lineVisit t cells o w).2.counting c) := by
  unfold lineVisit
  rw [Work.raiseAll_counting, visitWindows_counting]
  rfl

/-- A commit with strikes raises what placement and Order Check find, counts the line and puts it on the page. -/
theorem commit_eq (h : w.st.hasStrikes = true) : commit t w =
    let v := commitVisit t w
    { v.2 with st := { v.2.st with
      strikes := emptyLine
      openPage := some ((w.st.filingPage t.layout).taken t w.st.cells w.st.line v.1)
      counters := { w.st.counters with
        lines := w.st.counters.lines + 1
        listings := w.st.counters.listings + BitVec.ofNat 32 v.1.rise } } } := by
  have hraise : raiseAt t .strikeClash (lowestClash 1 w.st.strikes.toList) w =
      w.raiseAll t.table (((clashAt w.st.strikes).map Fin.val).toList.map (byteEntry w.st .strikeClash)) := by
    rw [lowestClash_eq, raiseAt_eq ⟨rfl, rfl⟩]
  unfold commit
  simp only [cells_of_strikes h, Bool.false_eq_true, if_false, hraise]
  generalize hw1 : w.raiseAll t.table
    (((clashAt w.st.strikes).map Fin.val).toList.map (byteEntry w.st .strikeClash)) = w1
  have hsame : w.SameEntries w1 := hw1 ▸ Work.raiseAll_sameEntries ..
  have keeps : ∀ {α : Type} (f : Station → α), (∀ e st, f (Station.raise t.table e st) = f st) → f w1.st = f w.st :=
    fun f hf => hw1 ▸ Work.raiseAll_proj hf ..
  have hcounters : w1.st.counters = w.st.counters := keeps Station.counters fun e st => st.raise_counters t.table e
  have hpage : w1.st.openPage.getD (Page.opening w1.st t.layout) = w.st.filingPage t.layout := by
    rw [Station.filingPage, keeps Station.openPage fun e st => st.raise_openPage t.table e, Page.opening,
      keeps Station.job fun e st => st.raise_job t.table e, hsame.page, ← Page.opening]
  have hvisit : lineVisit t w.st.cells (w.st.filingPage t.layout) w1 = commitVisit t w := by
    rw [lineVisit, commitVisit, commitEntries, Work.raiseAll_append, hw1, clipEntries_same _ hsame]
  rw [hcounters]
  generalize hw2 : w1.counting { w.st.counters with lines := w.st.counters.lines + 1 } = w2
  have hline : w2.st.line = w.st.line := hw2 ▸ hsame.line
  have htake := takeLine_eq (t := t) w.st.cells (w.st.filingPage t.layout) w2
  rw [hline, ← hw2, lineVisit_counting, hvisit] at htake
  exact (congrArg (fun o => (takeLine t w.st.cells o _).struck emptyLine) hpage).trans
    (congrArg (Work.struck emptyLine) htake)

/-! ## The statement's terms for a line's cells -/

/-- The window that holds a print position, by its number (R73). -/
theorem windowAt_zero (p : Nat) (ws : List Window) : windowAt p 0 ws =
    (ws.findIdx? fun x => x.start ≤ p ∧ p < x.start + x.width).bind fun k => ws[k]?.map fun x => (k, x) := by
  have hcovers : (fun x : Window => x.covers p) = fun x => decide (x.start ≤ p ∧ p < x.start + x.width) :=
    funext fun x => (Bool.decide_and ..).symm
  rw [windowAt_eq, hcovers]
  rfl

/-- What a window that holds a position makes of its cell; nothing where the strike list is empty (R73, R75). -/
theorem windowAt_classify {α : Type} (l : Layout) (k : List Strike) (p : Nat) (f : Nat × Window → Option α) :
    (if (classify k).isEmpty then none else (windowAt p 0 l.windows).bind f) =
      if k = [] then none
      else (l.windows.findIdx? fun x => x.start ≤ p ∧ p < x.start + x.width).bind fun i =>
        l.windows[i]?.bind fun x => f (i, x) := by
  simp only [classify_isEmpty, windowAt_zero, Option.bind_assoc, Option.bind_map]
  rfl

theorem Layout.placedAt_classify (l : Layout) (k : List Strike) (p : Nat) : l.placedAt (classify k, p) =
    if k = [] then none
    else (l.windows.findIdx? fun x => x.start ≤ p ∧ p < x.start + x.width).bind fun i =>
      l.windows[i]?.bind fun x =>
        if l.plateX x p + l.cellWidth ≤ l.width then some ⟨l.plateX x p, classify k⟩ else none :=
  windowAt_classify l k p _

theorem Layout.droppedAt_classify (l : Layout) (k : List Strike) (p : Nat) : l.droppedAt (classify k, p) =
    if k = [] then none
    else (l.windows.findIdx? fun x => x.start ≤ p ∧ p < x.start + x.width).bind fun i =>
      l.windows[i]?.bind fun x => if l.width < l.plateX x p + l.cellWidth then some (p, i) else none :=
  windowAt_classify l k p _

theorem placeCells_cells (l : Layout) (st : Station) : placeCells l 1 st.cells =
    ((List.finRange 132).filterMap fun n => l.placedAt (classify st.strikes[n].strikes, n.val + 1),
      (List.finRange 132).findSome? fun n => l.droppedAt (classify st.strikes[n].strikes, n.val + 1)) := by
  rw [placeCells_eq, Station.cells, zipIdx_map_toList, List.filterMap_map, List.findSome?_map]
  rfl

/-- A placed cell fits the page (R75). -/
theorem placeCells_fit (l : Layout) (p : Nat) (cells : List Cell) {x : PlacedCell} (hx : x ∈ (placeCells l p cells).1) :
    x.x + l.cellWidth ≤ l.width := by
  rw [placeCells_eq] at hx
  obtain ⟨y, -, hy⟩ := List.mem_filterMap.mp hx
  unfold Layout.placedAt at hy
  split at hy
  · cases hy
  · obtain ⟨z, -, hz⟩ := Option.bind_eq_some_iff.mp hy
    split at hz
    · rename_i hfit
      cases hz
      exact hfit
    · cases hz

/-- A filed line record is the line's own, above the foot, and holds its placed cells in ascending x (R75, R78). -/
theorem mem_lineRecords {cells : List Cell} {line : Nat} {breaks : List Nat} {x : LineRecord}
    (hx : x ∈ lineRecords t cells line breaks) : x = ⟨line, t.row line, sortByX (placeCells t.layout 1 cells).1, breaks⟩ ∧
      t.row line ≤ t.layout.depth ∧ (placeCells t.layout 1 cells).1 ≠ [] := by
  unfold lineRecords at hx
  split at hx
  · cases hx
  · rename_i hn
    exact ⟨List.mem_singleton.mp hx, Nat.le_of_not_lt fun h => hn (.inl h), fun h => hn (.inr h)⟩

theorem lineRecords_length (t : Tools) (cells : List Cell) (line : Nat) (breaks : List Nat) :
    (lineRecords t cells line breaks).length ≤ 1 := by
  unfold lineRecords
  split
  · exact Nat.zero_le _
  · exact Nat.le_refl _

/-- Settles O59: the commit as one record, its parts told in the statement's terms. -/
theorem commitFilesTheLine : Obligations.CommitFilesTheLine := by
  intro t w r before
  refine ⟨fun k => ?line, commit_of_no_strikes, commit_line t w, commit_overflow t w, commit_page t w, commit_carry t w,
    commit_queue t w, commit_reports t w, commit_pagesClosed t w, fun h => ?_⟩
  case line => simp [r, emptyLine, Position.empty]
  have hr : r = _ := commit_eq h
  have hbefore : before = (w.st.filingPage t.layout).lines := w.st.filingPage_part t.layout Page.lines
  refine ⟨by rw [hr], (w.st.filingPage t.layout).taken t w.st.cells w.st.line (commitVisit t w).1,
    lineRecords t w.st.cells w.st.line (commitVisit t w).1.breaks, by rw [hr], by rw [hbefore]; rfl,
    lineRecords_length .., fun x hx => ?record, fun hfoot => ?foot, fun ho => ?opened, fun q ho => ?kept, ?_⟩
  case record =>
    obtain ⟨rfl, hrow, hsome⟩ := mem_lineRecords hx
    exact ⟨rfl, rfl, hrow, fun hnone => hsome ((sortByX_eq_nil _).mp hnone),
      fun c hc => placeCells_fit _ _ _ ((sortByX_perm _).mem_iff.mp hc)⟩
  case foot =>
    have hfoot : t.layout.depth < t.row w.st.line := hfoot
    exact ⟨if_pos (.inl hfoot), by simp [Page.taken, hfoot]⟩
  case opened =>
    have hpage : w.st.filingPage t.layout = Page.opening w.st t.layout := congrArg (Option.getD · _) ho
    have hcolumns : (commitVisit t w).1.columns.length = t.layout.windows.length :=
      (visitWindows_columns_length ..).trans (by rw [hpage]; exact List.length_map _)
    rw [hpage]
    exact ⟨rfl, rfl, rfl, rfl, rfl, rfl, rfl, rfl, hcolumns⟩
  case kept =>
    have hpage : w.st.filingPage t.layout = q := congrArg (Option.getD · _) ho
    rw [hpage]
    exact ⟨rfl, rfl, rfl, rfl, rfl, rfl, fun hq => by simp [Page.taken, hq]⟩
  intro cells windows entry glyphs clash foot dropped edge raised columns v rise placed fitting
  have hclash : clash = clashAt w.st.strikes :=
    congrArg (List.find? · _) (funext fun n => (clashes_eq w.st.strikes[n].strikes).symm)
  have hfitting : fitting = (placeCells t.layout 1 w.st.cells).1 := by
    rw [placeCells_cells]
    exact congrArg (List.filterMap · _) (funext fun n => (t.layout.placedAt_classify ..).symm)
  have hedge : edge = edgeDrop t w.st.cells w.st.line := by
    rw [edgeDrop, placeCells_cells]
    exact congrArg (fun f => if foot then none else List.findSome? f _)
      (funext fun n => (t.layout.droppedAt_classify ..).symm)
  have hraised : raised = commitEntries t w.st := by
    simp only [raised, hclash, hedge]
    rw [commitEntries, clipEntries, ← List.append_assoc]
    cases clashAt w.st.strikes <;> rfl
  have hcolumns : columns = (w.st.filingPage t.layout).columns := w.st.filingPage_part t.layout Page.columns
  have hv : v = commitVisit t w := by
    simp only [v, hraised, hcolumns]
    rfl
  have hclosed : r.closed = w.closed := commit_closed t w
  have hclipped := w.st.filingPage_part t.layout Page.clipped
  have hlistings := w.st.filingPage_part t.layout Page.listings
  have hchecked := visitWindows_checked (t := t) cells 0 windows (w.st.filingPage t.layout).columns
    (w.raiseAll t.table (commitEntries t w.st))
  have hrise : rise = (commitVisit t w).1.rise := by
    simp only [rise, hv]
    rfl
  rw [hr] at hclosed
  rw [hfitting, hv, hedge, hrise, hr, hcolumns]
  refine ⟨fun hnone => if_pos hnone, fun hfoot hsome => ⟨_, if_neg (not_or.mpr ⟨hfoot, hsome⟩), sortByX_perm _,
    sortByX_pairwise _⟩, rfl, hclosed, rfl, rfl, rfl, rfl, rfl, rfl, ?_, rfl, fun x hx => ?_, hchecked, ?_, rfl⟩
  · exact congrArg (· || decide foot || _) hclipped.symm
  · rw [(mem_lineRecords hx).1]
  · exact congrArg (· + _) hlistings.symm

end Sys2Proof.Machine
end

section
/-! SUPPORT. The line records of every page ascend (R59, R78): a commit files at the carriage line alone, above every line
filed before, and a motion that commits then goes below that line or closes the page. -/

namespace Sys2Proof.Machine

variable {s u : State} {i : StationId} {st : Station} {t : Tools} {w : Work}

/-! ## Pages in order -/

/-- The record `a` is of a carriage line above that of `b`. -/
def LineRecord.Above (a b : LineRecord) : Prop := a.line < b.line

theorem ascending_iff (l : List LineRecord) : ascending l = true ↔ l.Pairwise LineRecord.Above := by
  have htrans : Trans LineRecord.Above LineRecord.Above LineRecord.Above := ⟨Nat.lt_trans⟩
  rw [← List.isChain_iff_pairwise]
  fun_induction ascending l with
  | case1 => simp
  | case2 => simp
  | case3 a b rest ih =>
    rw [List.isChain_cons_cons, Bool.and_eq_true, decide_eq_true_iff]
    exact and_congr_right fun _ => ih

/-- The page's line records stand in strictly ascending carriage line (R78). -/
def Page.Ascends (p : Page) : Prop := p.lines.Pairwise LineRecord.Above

/-- The closed pages ascend, and so does the open page, all of it above line `n` (R59, R78). -/
def Station.FiledAbove (n : Nat) (st : Station) : Prop :=
  (∀ p ∈ st.queue, p.Ascends) ∧ ∀ p, st.openPage = some p → p.Ascends ∧ ∀ r ∈ p.lines, r.line < n

/-- The pages ascend, and the open page's lines lie above the carriage line. -/
def Station.Filed (st : Station) : Prop := st.FiledAbove st.line

theorem Station.filed_iff (st : Station) : st.Filed ↔ st.pagesAscend = true := by
  unfold Station.Filed Station.FiledAbove Station.pagesAscend
  cases st.openPage with
  | none => simp [ascending_iff, Page.Ascends]
  | some p => simp [ascending_iff, Page.Ascends]

theorem Station.FiledAbove.mono {m n : Nat} (h : st.FiledAbove m) (hmn : m ≤ n) : st.FiledAbove n :=
  ⟨h.1, fun p hp => ⟨(h.2 p hp).1, fun r hr => ((h.2 p hp).2 r hr).trans_le hmn⟩⟩

/-- Without an open page the carriage line does not matter. -/
theorem Station.FiledAbove.of_closed (hq : ∀ p ∈ st.queue, p.Ascends) (ho : st.openPage = none) (n : Nat) :
    st.FiledAbove n :=
  ⟨hq, fun p hp => by rw [ho] at hp; cases hp⟩

/-- A page grown at line `n`, with its lines above `n`, ascends as far as `n` (R78). -/
theorem Page.Grown.ascends {n : Nat} {o p : Page} (h : Page.Grown n o p) (ho : o.Ascends) (habove : ∀ r ∈ o.lines, r.line < n) :
    p.Ascends ∧ ∀ r ∈ p.lines, r.line < n + 1 := by
  obtain ⟨new, hlines, hlen, hnew⟩ := h.lines
  constructor
  · rw [Page.Ascends, hlines, List.pairwise_append]
    refine ⟨ho, ?_, fun a ha b hb => (habove a ha).trans_eq (hnew b hb).symm⟩
    match new, hlen with
    | [], _ => exact .nil
    | [x], _ => exact List.pairwise_singleton _ x
  · intro r hr
    rcases List.mem_append.mp (hlines ▸ hr) with hold | hadded
    · exact (habove r hold).trans n.lt_succ_self
    · exact (hnew r hadded).trans_lt n.lt_succ_self

/-! ## The work of a line -/

/-- The commit files at the carriage line, if it files (R56, R78). -/
theorem filedAbove_commit (h : w.st.Filed) : (commit t w).st.FiledAbove (w.st.line + 1) := by
  obtain ⟨hqueue, hopen⟩ := h
  cases hs : w.st.hasStrikes with
  | false =>
    rw [commit_of_no_strikes hs]
    exact Station.FiledAbove.mono ⟨hqueue, hopen⟩ (Nat.le_succ _)
  | true =>
    obtain ⟨-, p, hp, hgrown⟩ := commit_of_strikes (t := t) hs
    have hfiling : (w.st.filingPage t.layout).Ascends ∧ ∀ r ∈ (w.st.filingPage t.layout).lines, r.line < w.st.line := by
      cases ho : w.st.openPage with
      | none => simp [Station.filingPage, ho, Page.opening, Page.Ascends]
      | some o => simpa [Station.filingPage, ho] using hopen o ho
    refine ⟨fun q hq => hqueue q (commit_queue t w ▸ hq), fun q hq => ?_⟩
    obtain rfl : p = q := Option.some.inj (hp.symm.trans hq)
    exact hgrown.ascends hfiling.1 hfiling.2

/-- A form end closes the page as it stands (R38, R82). -/
theorem filedAbove_formEnd {n : Nat} (h : w.st.FiledAbove n) (m : Nat) : (formEnd t w).st.FiledAbove m := by
  refine .of_closed (fun q hq => ?_) (formEnd_queue t w).1 m
  cases ho : w.st.openPage with
  | none =>
    rw [formEnd_blank ho] at hq
    exact h.1 q hq
  | some p =>
    rw [formEnd_page ho] at hq
    rcases List.mem_append.mp hq with hq | hq
    · exact h.1 q hq
    · rw [List.mem_singleton.mp hq]
      exact (h.2 p ho).1

/-- A step of a SPACE goes one line down, or closes the page (R34). -/
theorem filed_spaceStep (h : w.st.FiledAbove (w.st.line + 1)) : (spaceStep t w).st.Filed := by
  unfold Station.Filed
  rw [spaceStep_line]
  unfold spaceStep
  by_cases hl : w.st.line < t.tape.formLength
  · simp only [hl, if_true]
    split <;> exact h
  · simp only [hl, if_false]
    split <;> exact filedAbove_formEnd h 1

theorem filed_spaceSteps {k : Nat} (hk : k ≠ 0) (h : w.st.FiledAbove (w.st.line + 1)) : (spaceSteps t k w).st.Filed := by
  induction k generalizing w with
  | zero => exact absurd rfl hk
  | succ k ih =>
    have hstep : (spaceStep t w).st.Filed := filed_spaceStep h
    rcases Nat.eq_zero_or_pos k with rfl | hpos
    · exact hstep
    · exact ih hpos.ne' (hstep.mono (Nat.le_succ _))

/-- A SKIP goes to a line below, or closes the page (R36). -/
theorem filed_skipTo (k : Nat) (h : w.st.FiledAbove (w.st.line + 1)) : (skipTo t k w).st.Filed := by
  unfold skipTo
  split
  · rename_i n hn
    exact h.mono (Tape.findStop_eq_some.mp hn).1
  · dsimp only
    split
    · exact filedAbove_formEnd h _
    · exact filedAbove_formEnd h 1

/-- The law looks at the queue, the open page and the carriage line alone. -/
theorem Station.Filed.congr {st' : Station} (h : st.Filed) (hqueue : st'.queue = st.queue) (hopen : st'.openPage = st.openPage)
    (hline : st'.line = st.line) : st'.Filed := by
  unfold Station.Filed Station.FiledAbove
  rw [hqueue, hopen, hline]
  exact h

theorem Station.filed_raise (table : Dispositions) (e : CondEntry) (h : st.Filed) : (st.raise table e).Filed :=
  h.congr (st.raise_queue table e) (st.raise_openPage table e) (st.raise_line table e)

theorem filed_printed (bytes : Option (List Byte)) (h : w.st.Filed) : (w.printed t bytes).st.Filed := by
  cases bytes with
  | none => exact h
  | some bs =>
    exact h.congr (Work.recorded_proj (f := Station.queue) (fun e st => st.raise_queue t.table e) bs w)
      (Work.recorded_proj (f := Station.openPage) (fun e st => st.raise_openPage t.table e) bs w)
      (Work.recorded_proj (f := Station.line) (fun e st => st.raise_line t.table e) bs w)

/-- A motion commits only if it then leaves the line (R33). -/
theorem filed_carry (m : Motion) (h : w.st.Filed) : (carry t m w).st.Filed := by
  have hcommit : (commit t w).st.FiledAbove ((commit t w).st.line + 1) := by
    rw [commit_line]
    exact filedAbove_commit h
  unfold carry
  split
  · rename_i hleaves
    cases m with
    | space k => exact filed_spaceSteps (bne_iff_ne.mp hleaves) hcommit
    | skip k => exact filed_skipTo k hcommit
  · cases m with
    | space k => exact h
    | skip k => exact Station.filed_raise _ _ h

theorem filed_lineWork (c : Control) (bytes : Option (List Byte)) (h : st.Filed) : (lineWork t c bytes st).st.Filed := by
  cases hb : c.before with
  | true =>
    rw [lineWork_before hb]
    exact filed_printed bytes (filed_carry _ h)
  | false =>
    rw [lineWork_after hb]
    exact filed_carry _ (filed_printed bytes h)

/-- END JOB commits and closes the page (R9). -/
theorem filedAbove_endJobWork (h : st.Filed) (n : Nat) : (endJobWork t st).st.FiledAbove n := by
  have hcommit := filedAbove_commit (t := t) (w := ⟨st, false, false⟩) h
  refine .of_closed (fun q hq => ?_) (endJobWork_not_busy t st).1 n
  cases ho : (commit t ⟨st, false, false⟩).st.openPage with
  | none =>
    rw [endJobWork_of_no_page ho] at hq
    exact hcommit.1 q hq
  | some p =>
    obtain ⟨q', line, mark, -, -, -, -, -, hlines, hwork⟩ := endJobWork_of_page ho
    rw [hwork] at hq
    rcases List.mem_append.mp hq with hq | hq
    · exact h.1 q hq
    · rw [List.mem_singleton.mp hq, Page.Ascends, hlines]
      exact (hcommit.2 p ho).1

/-! ## The law of one station -/

theorem Station.filed_finishJob (h : st.FiledAbove 1) : st.finishJob.Filed := by
  rcases st.finishJob_cases with ⟨-, he⟩ | ⟨-, -, he⟩ | ⟨-, -, he⟩ <;> rw [he] <;> exact h

theorem Station.filed_drainTest (h : st.Filed) : st.drainTest.Filed := by
  rcases st.drainTest_cases with he | ⟨-, -, he⟩ <;> rw [he] <;> exact h

theorem Station.filed_addHolds (x : Holds) (h : st.Filed) : (st.addHolds x).Filed := by
  rcases st.addHolds_cases x with ⟨he, -⟩ | ⟨he, -⟩ <;> rw [he] <;> exact h

theorem Station.filed_removeHolds (x : Holds) (h : st.Filed) : (st.removeHolds x).Filed := by
  rcases st.removeHolds_cases x with ⟨he, -⟩ | ⟨he, -⟩ <;> rw [he]
  · rw [Station.refreshIdle_eq]
    exact h
  · exact h

/-- The head of the queue leaves it. -/
theorem Station.filed_freeHead (h : st.Filed) : st.freeHead.Filed :=
  ⟨fun p hp => h.1 p (List.mem_of_mem_tail hp), h.2⟩

/-- A station that composes nothing may stand at any line. -/
theorem Station.FiledAbove.of_not_busy {n : Nat} (h : st.FiledAbove n) (hb : st.busy = false) (m : Nat) : st.FiledAbove m :=
  .of_closed h.1 ((Station.busy_eq_false_iff st).mp hb).1 m

theorem StationChange.filed (hc : StationChange s i st) (h : (s.station i).Filed) : st.Filed := by
  cases hc with
  | line c bytes => exact filed_lineWork c bytes h
  | raise e => exact Station.filed_raise _ e h
  | endJob => exact Station.filed_finishJob (filedAbove_endJobWork h 1)
  | hold => exact Station.filed_addHolds _ h
  | release => exact Station.filed_removeHolds (st := { s.station i with record := _ }) _ h
  | panel on =>
    cases on with
    | true => exact Station.filed_addHolds _ h
    | false => exact Station.filed_removeHolds _ h
  | reset on =>
    rw [Station.reset_eq]
    exact ⟨h.1, fun _ hp => nomatch hp⟩
  | freeAll => exact ⟨fun _ hp => absurd hp List.not_mem_nil, h.2⟩
  | head x n hq =>
    obtain ⟨hhead, hrest⟩ := List.forall_mem_cons.mp (hq ▸ h.1)
    exact ⟨List.forall_mem_cons.mpr ⟨hhead, hrest⟩, h.2⟩
  | imaged => exact Station.filed_drainTest (Station.filed_freeHead h)
  | refused => exact Station.filed_drainTest (Station.filed_raise _ _ (Station.filed_freeHead h))
  | _ => exact h

theorem stationLaw_filed : StationLaw Station.Filed where
  powerOn := .of_closed (fun _ hp => absurd hp List.not_mem_nil) rfl _
  change := StationChange.filed
  select new st _ _ h := by
    rw [Station.select_eq]
    exact h
  park st _ hb h := h.of_not_busy hb 1
  resume r line st _ hb h := h.of_not_busy hb line

/-- Settles O7: a law of single stations, kept since a commit is followed by a motion off its line or a close. -/
theorem stepKeepsPagesAscending : Obligations.StepKeepsPagesAscending := by
  intro s t hs ht
  simp only [State.pagesAscend, State.allStations_iff, ← Station.filed_iff] at hs ⊢
  exact stationLaw_filed.step hs ht

end Sys2Proof.Machine
end

section
/-! SUPPORT. Plate arithmetic (R71 to R74), guides that fit (R83) and the distinct x of a line's placed cells (R70, R75): within
a window plate positions rise strictly, and two windows' spans lie apart. -/

namespace Sys2Proof.Machine

variable {l : Layout} {w : Window} {p q : Nat}

/-! ## Rounding (R71) -/

theorem rnd_bounds (a : Nat) : 100 * rnd a ≤ a + 50 ∧ a < 100 * rnd a + 50 := by
  unfold rnd
  omega

theorem rnd_mono {a b : Nat} (h : a ≤ b) : rnd a ≤ rnd b := Nat.div_le_div_right (Nat.add_le_add_right h 50)

/-- Numbers a whole unit apart round apart. -/
theorem rnd_lt_rnd {a b : Nat} (h : a + 100 ≤ b) : rnd a < rnd b := by
  unfold rnd
  omega

/-- Multiples of a pitch of at least one unit round to distinct numbers. -/
theorem rnd_steps_lt {i j d k : Nat} (hunit : 100 ≤ d * k) (h : i < j) : rnd (i * d * k) < rnd (j * d * k) := by
  refine rnd_lt_rnd ?_
  rw [Nat.mul_assoc, Nat.mul_assoc]
  calc i * (d * k) + 100 ≤ (i + 1) * (d * k) := by rw [Nat.succ_mul]; omega
    _ ≤ j * (d * k) := Nat.mul_le_mul_right _ h

/-! ## Rows and positions on the plate (R72, R74) -/

theorem plateRow_lt {m n : Nat} (hr : 40 ≤ l.reduction) (pitch : Pitch) (hm : 1 ≤ m) (h : m < n) :
    plateRow l pitch m < plateRow l pitch n := by
  have hunit : 100 ≤ pitch.dots * l.reduction := by
    cases pitch <;> simp only [Pitch.dots] <;> omega
  exact Nat.add_lt_add_left (rnd_steps_lt hunit (by omega)) _

theorem plateX_lt (hr : 40 ≤ l.reduction) (hp : w.start ≤ p) (h : p < q) : l.plateX w p < l.plateX w q := by
  have hunit : 100 ≤ Config.dotsPerPosition * l.reduction := by
    simp only [Config.dotsPerPosition]
    omega
  exact Nat.add_lt_add_left (rnd_steps_lt hunit (by omega)) _

theorem cellWidth_pos (hr : 40 ≤ l.reduction) : 0 < l.cellWidth := by
  simp only [Layout.cellWidth, Config.dotsPerPosition, rnd]
  omega

theorem outX_le_plateX : w.outX ≤ l.plateX w p := Nat.le_add_right ..

theorem plateX_add_cellWidth_le_spanEnd (hc : w.covers p = true) : l.plateX w p + l.cellWidth ≤ l.spanEnd w := by
  simp only [Window.covers, Bool.and_eq_true, decide_eq_true_eq] at hc
  have hlast : p - w.start ≤ w.width - 1 := by omega
  exact Nat.add_le_add_right (Nat.add_le_add_left (rnd_mono (Nat.mul_le_mul_right _ (Nat.mul_le_mul_right _ hlast))) _) _

/-! ## Guides (R83) -/

theorem fitGuide_prefix (width cw x : Nat) (text : Text) : fitGuide width cw x text <+: text :=
  fitGuide_eq width cw x text ▸ List.take_prefix ..

/-- The cells of a guide end within the page width, if there are any. -/
theorem fitGuide_fits {width cw x : Nat} {text : Text} (h : fitGuide width cw x text ≠ []) :
    x + (fitGuide width cw x text).length * cw ≤ width := by
  induction text generalizing x with
  | nil => exact absurd rfl h
  | cons c cs ih =>
    unfold fitGuide at h ⊢
    split at h
    · rename_i hx
      rw [if_pos hx, List.length_cons, Nat.succ_mul]
      by_cases hrest : fitGuide width cw (x + cw) cs = []
      · rw [hrest, List.length_nil]
        omega
      · have := ih hrest
        omega
    · exact absurd rfl h

theorem placeGuide_fits {x : Nat} {text : Text} {g : PlacedGuide} (h : placeGuide l x text = some g) :
    g.x = x ∧ g.text ≠ [] ∧ g.text <+: text ∧ g.x + g.text.length * l.cellWidth ≤ l.width := by
  unfold placeGuide at h
  split at h
  · cases h
  · rename_i c cs hfit
    cases h
    have hne : fitGuide l.width l.cellWidth x text ≠ [] := hfit ▸ List.cons_ne_nil c cs
    rw [← hfit]
    exact ⟨rfl, hne, fitGuide_prefix .., fitGuide_fits hne⟩

/-! ## Placed cells at distinct x (R70) -/

theorem pairwiseB_iff {α : Type} (r : α → α → Bool) (as : List α) :
    pairwiseB r as = true ↔ as.Pairwise fun a b => r a b = true := by
  induction as with
  | nil => simp [pairwiseB]
  | cons a as ih => rw [pairwiseB, Bool.and_eq_true, List.all_eq_true, ih, List.pairwise_cons]

/-- What two different windows of a valid layout are to each other (R70 condition 3). -/
theorem Layout.spansApart_of_ne (hspans : pairwiseB l.spansApart l.windows = true) {a b : Window} (ha : a ∈ l.windows)
    (hb : b ∈ l.windows) (hne : a ≠ b) : l.spanEnd a ≤ b.outX ∨ l.spanEnd b ≤ a.outX := by
  have hsymm : Std.Symm fun a b => l.spansApart a b = true :=
    ⟨fun a b h => by rwa [Layout.spansApart, Bool.or_comm] at h⟩
  have hapart := ((pairwiseB_iff _ _).mp hspans).forall ha hb hne
  simpa [Layout.spansApart] using hapart

theorem windowAt_mem {i : Nat} {ws : List Window} {y : Nat × Window} (h : windowAt p i ws = some y) :
    y.2 ∈ ws ∧ y.2.covers p = true := by
  rw [windowAt_eq] at h
  obtain ⟨k, hk, hy⟩ := Option.bind_eq_some_iff.mp h
  obtain ⟨x, hx, rfl⟩ := Option.map_eq_some_iff.mp hy
  obtain ⟨hlt, hcovers, -⟩ := List.findIdx?_eq_some_iff_getElem.mp hk
  obtain ⟨-, rfl⟩ := List.getElem?_eq_some_iff.mp hx
  exact ⟨List.getElem_mem _, hcovers⟩

/-- A placed cell stands at its position's place in a window that covers it (R74, R75). -/
theorem Layout.placedAt_x {x : Cell × Nat} {c : PlacedCell} (h : l.placedAt x = some c) :
    ∃ w ∈ l.windows, w.covers x.2 = true ∧ c.x = l.plateX w x.2 := by
  unfold Layout.placedAt at h
  split at h
  · cases h
  · obtain ⟨y, hy, hc⟩ := Option.bind_eq_some_iff.mp h
    obtain ⟨hmem, hcovers⟩ := windowAt_mem hy
    split at hc
    · cases hc
      exact ⟨y.2, hmem, hcovers, rfl⟩
    · cases hc

/-- Two covered positions stand at distinct x: in one window they rise, and two windows' spans lie apart. -/
theorem plateX_ne (hr : 40 ≤ l.reduction) (hspans : pairwiseB l.spansApart l.windows = true) {a b : Window}
    (ha : a ∈ l.windows) (hb : b ∈ l.windows) (hap : a.covers p = true) (hbq : b.covers q = true) (h : p < q) :
    l.plateX a p ≠ l.plateX b q := by
  by_cases hab : a = b
  · subst hab
    simp only [Window.covers, Bool.and_eq_true, decide_eq_true_eq] at hap
    exact (plateX_lt hr hap.1 h).ne
  · have hwidth := cellWidth_pos hr
    have haEnd := plateX_add_cellWidth_le_spanEnd (l := l) hap
    have hbEnd := plateX_add_cellWidth_le_spanEnd (l := l) hbq
    have haStart := outX_le_plateX (l := l) (w := a) (p := p)
    have hbStart := outX_le_plateX (l := l) (w := b) (p := q)
    rcases Layout.spansApart_of_ne hspans ha hb hab with hapart | hapart <;> omega

theorem placeCells_nodup (hr : 40 ≤ l.reduction) (hspans : pairwiseB l.spansApart l.windows = true) (n : Nat)
    (cells : List Cell) : ((placeCells l n cells).1.map PlacedCell.x).Nodup := by
  have hrise : (cells.zipIdx n).Pairwise fun x y => x.2 < y.2 := by
    rw [← List.pairwise_map, List.zipIdx_map_snd]
    exact List.pairwise_lt_range' ..
  rw [placeCells_eq, List.Nodup, List.pairwise_map, List.pairwise_filterMap]
  refine hrise.imp fun hlt c hc d hd => ?_
  obtain ⟨a, ha, hap, hcx⟩ := Layout.placedAt_x hc
  obtain ⟨b, hb, hbq, hdx⟩ := Layout.placedAt_x hd
  rw [hcx, hdx]
  exact plateX_ne hr hspans ha hb hap hbq hlt

theorem Layout.valid_spans (l : Layout) (h : l.valid = true) : 40 ≤ l.reduction ∧ pairwiseB l.spansApart l.windows = true := by
  simp only [Layout.valid, Bool.and_eq_true, decide_eq_true_eq] at h
  obtain ⟨⟨⟨⟨⟨⟨⟨⟨⟨⟨-, hr⟩, -⟩, -⟩, -⟩, -⟩, -⟩, -⟩, -⟩, -⟩, hspans⟩ := h
  exact ⟨hr, hspans⟩

/-- Settles O53: plate arithmetic part by part, and the distinct x by the windows of a valid layout. -/
theorem placedCellsFitThePage : Obligations.PlacedCellsFitThePage :=
  ⟨rnd_bounds, fun _ _ _ => ⟨rfl, rfl, rfl, rfl⟩,
    fun _ hr => ⟨fun pitch _ _ hm h => plateRow_lt hr pitch hm h, fun _ _ _ hp h => plateX_lt hr hp h⟩,
    fun l cells _ hc => placeCells_fit l 1 cells hc, fun _ _ _ _ h => placeGuide_fits h,
    fun l cells hvalid => placeCells_nodup (l.valid_spans hvalid).1 (l.valid_spans hvalid).2 1 cells⟩

end Sys2Proof.Machine
end

section
/-! SUPPORT. Listings (R86 to R95): keys compared weight by weight, the key field, the key and text formed from it, and the
in-column check of one window after another. -/

namespace Sys2Proof.Machine

/-! ## Keys compared (R90) -/

theorem byte_trichotomy (a b : Byte) : a < b ∨ a = b ∨ b < a := by bv_omega

theorem compareKeys_cons_self (a : Byte) (as bs : Key) : compareKeys (a :: as) (a :: bs) = compareKeys as bs := by
  rw [compareKeys, if_neg (BitVec.lt_irrefl a), if_neg (BitVec.lt_irrefl a)]

theorem compareKeys_cons_of_lt {a b : Byte} (h : a < b) (as bs : Key) : compareKeys (a :: as) (b :: bs) = .lt := by
  rw [compareKeys, if_pos h]

theorem compareKeys_cons_of_gt {a b : Byte} (h : b < a) (as bs : Key) : compareKeys (a :: as) (b :: bs) = .gt := by
  rw [compareKeys, if_neg (BitVec.lt_asymm h), if_pos h]

/-- The first weights decide, or the rests do where they are alike. -/
theorem compareKeys_cons_lt_iff (a b : Byte) (as bs : Key) :
    compareKeys (a :: as) (b :: bs) = .lt ↔ a < b ∨ a = b ∧ compareKeys as bs = .lt := by
  rcases byte_trichotomy a b with h | rfl | h
  · simp [compareKeys_cons_of_lt h, h]
  · simp [compareKeys_cons_self, BitVec.lt_irrefl]
  · simp [compareKeys_cons_of_gt h, BitVec.lt_asymm h, (BitVec.ne_of_lt h).symm]

/-- The lesser key runs out first, or has the smaller weight at the first difference. -/
theorem compareKeys_lt_iff (a b : Key) :
    compareKeys a b = .lt ↔ ∃ n, a.take n = b.take n ∧ n ≤ a.length ∧ n < b.length ∧
      (n = a.length ∨ ∃ x y, a[n]? = some x ∧ b[n]? = some y ∧ x < y) := by
  induction a generalizing b with
  | nil => cases b <;> simp [compareKeys]
  | cons x xs ih =>
    cases b with
    | nil => simp [compareKeys]
    | cons y ys =>
      rw [compareKeys_cons_lt_iff, ih]
      refine Iff.trans ?_ Nat.or_exists_add_one
      simp [and_assoc]

theorem compareKeys_swap (a b : Key) : (compareKeys b a).swap = compareKeys a b := by
  induction a generalizing b with
  | nil => cases b <;> rfl
  | cons x xs ih =>
    cases b with
    | nil => rfl
    | cons y ys =>
      rcases byte_trichotomy x y with h | rfl | h
      · rw [compareKeys_cons_of_lt h, compareKeys_cons_of_gt h, Ordering.swap_gt]
      · rw [compareKeys_cons_self, compareKeys_cons_self, ih]
      · rw [compareKeys_cons_of_gt h, compareKeys_cons_of_lt h, Ordering.swap_lt]

theorem compareKeys_eq_iff (a b : Key) : compareKeys a b = .eq ↔ a = b := by
  induction a generalizing b with
  | nil => cases b <;> simp [compareKeys]
  | cons x xs ih =>
    cases b with
    | nil => simp [compareKeys]
    | cons y ys =>
      rcases byte_trichotomy x y with h | rfl | h
      · simp [compareKeys_cons_of_lt h, BitVec.ne_of_lt h]
      · simp [compareKeys_cons_self, ih]
      · simp [compareKeys_cons_of_gt h, (BitVec.ne_of_lt h).symm]

/-- Settles O51: keys by their first weights, then by the rests. -/
theorem keysCompareByWeight : Obligations.KeysCompareByWeight := by
  refine fun a b => ⟨compareKeys_lt_iff a b, ?swap, compareKeys_eq_iff a b, fun hb => ?empty, rfl⟩
  case swap => rw [← compareKeys_swap a b, Ordering.swap_eq_gt]
  case empty =>
    obtain ⟨y, ys, rfl⟩ := List.exists_cons_of_ne_nil hb
    rfl

/-! ## Lists without the run at their end -/

/-- The model's trimming is the library's. -/
theorem trimEnd_eq_rdropWhile {α : Type} [DecidableEq α] (x : α) (l : List α) : trimEnd x l = l.rdropWhile (· = x) := rfl

/-- What trimming takes off is a run of `x`. -/
theorem trimEnd_append_replicate {α : Type} [DecidableEq α] (x : α) (l : List α) :
    ∃ n, l = trimEnd x l ++ List.replicate n x := by
  refine ⟨(l.rtakeWhile (· = x)).length, ?_⟩
  have hrun : l.rtakeWhile (· = x) = List.replicate (l.rtakeWhile (· = x)).length x :=
    List.eq_replicate_iff.mpr ⟨rfl, fun y hy => by simpa using List.mem_rtakeWhile_imp hy⟩
  rw [← hrun, trimEnd_eq_rdropWhile, List.rdropWhile_append_rtakeWhile]

theorem trimEnd_getLast? {α : Type} [DecidableEq α] (x : α) (l : List α) : (trimEnd x l).getLast? ≠ some x := by
  intro h
  rw [trimEnd_eq_rdropWhile] at h
  obtain ⟨hne, hlast⟩ := List.mem_getLast?_eq_getLast h
  exact List.rdropWhile_last_not (· = x) l hne (by simpa using hlast.symm)

theorem trimEnd_eq_nil_iff {α : Type} [DecidableEq α] (x : α) (l : List α) : trimEnd x l = [] ↔ ∀ y ∈ l, y = x := by
  rw [trimEnd_eq_rdropWhile, List.rdropWhile_eq_nil_iff]
  simp

theorem length_trimEnd_le {α : Type} [DecidableEq α] (x : α) (l : List α) : (trimEnd x l).length ≤ l.length :=
  (List.rdropWhile_prefix (· = x) l).length_le

/-! ## Key fields, keys and texts (R87 to R89) -/

/-- The cells of a key field are those at its print positions (R87). -/
theorem mem_keyField_iff {w : Window} {cells : List Cell} {c : Cell} (hw : 1 ≤ w.start) :
    c ∈ keyField w cells ↔ ∃ p, w.start + w.keyOffset ≤ p ∧ p < w.start + w.keyOffset + w.keyLength ∧
      cells[p - 1]? = some c := by
  simp only [keyField, List.mem_iff_getElem?, List.getElem?_take, List.getElem?_drop]
  constructor
  · rintro ⟨k, hk⟩
    split at hk
    · exact ⟨w.start + w.keyOffset + k, by omega, by omega, by rw [← hk]; congr 1; omega⟩
    · cases hk
  · rintro ⟨p, hfirst, hlast, hc⟩
    refine ⟨p - (w.start + w.keyOffset), ?_⟩
    rw [if_pos (by omega), ← hc]
    congr 1
    omega

theorem isListing_iff {w : Window} {cells : List Cell} : isListing w cells = true ↔
    (w.check = true ∨ w.guide = true) ∧ ∃ c ∈ keyField w cells, c.base.isSome = true := by
  simp only [isListing, Bool.and_eq_true, Bool.or_eq_true, List.any_eq_true]

theorem isListing_iff_position {w : Window} {cells : List Cell} (hw : 1 ≤ w.start) : isListing w cells = true ↔
    (w.check = true ∨ w.guide = true) ∧ ∃ p c, w.start + w.keyOffset ≤ p ∧ p < w.start + w.keyOffset + w.keyLength ∧
      cells[p - 1]? = some c ∧ c.base.isSome = true := by
  simp only [isListing_iff, mem_keyField_iff hw]
  refine and_congr_right fun _ => ⟨?_, ?_⟩
  · rintro ⟨c, ⟨p, hfirst, hlast, hc⟩, hbase⟩
    exact ⟨p, c, hfirst, hlast, hc, hbase⟩
  · rintro ⟨p, c, hfirst, hlast, hc, hbase⟩
    exact ⟨c, ⟨p, hfirst, hlast, hc⟩, hbase⟩

theorem formKey_length_le (table : CollTable) (field : List Cell) : (formKey table field).length ≤ field.length :=
  calc (formKey table field).length
      ≤ ((field.map table.weight).filter (· ≠ 0)).length := length_trimEnd_le ..
    _ ≤ (field.map table.weight).length := List.length_filter_le ..
    _ = field.length := List.length_map _

/-- The key is the field's weights without those ignored and without the run of blanks at the end (R88). -/
theorem formKey_append_replicate (table : CollTable) (field : List Cell) :
    ∃ n, ((field.map table.weight).filter fun x => x != 0) =
      formKey table field ++ List.replicate n table[(0 : Code)] := by
  have hignored : (fun x : Byte => x != 0) = fun x => decide (x ≠ 0) := by
    funext x
    rw [decide_not, bne, beq_eq_decide]
  rw [hignored]
  exact trimEnd_append_replicate ..

/-- A glyph other than the blank keeps the text from being empty (R89). -/
theorem formText_ne_nil {field : List Cell} {c : Cell} {g : Code} (hc : c ∈ field) (hbase : c.base = some g) (hg : g ≠ 0) :
    formText field ≠ [] := by
  intro h
  have hcode : c.code = 0 := (trimEnd_eq_nil_iff ..).mp h _ (List.mem_map_of_mem hc)
  exact hg (by simpa [Cell.code, hbase] using hcode)

/-! ## The visit of one window, and of the windows after it (R92 to R95) -/

/-- The key a listing forms in a window: none without CHECK or without a collation table (R103). -/
def listingKey (t : Tools) (w : Window) (cells : List Cell) : Option Key :=
  if w.check then t.coll.map fun table => formKey table (keyField w cells) else none

theorem listingKey_of_check {t : Tools} {w : Window} {table : CollTable} (cells : List Cell) (hcheck : w.check = true)
    (hcoll : t.coll = some table) : listingKey t w cells = some (formKey table (keyField w cells)) := by
  simp [listingKey, hcheck, hcoll]

theorem listingKey_eq_none {t : Tools} {w : Window} (cells : List Cell) (h : w.check = false ∨ t.coll = none) :
    listingKey t w cells = none := by
  rcases h with h | h <;> simp [listingKey, h]

/-- The visit of windows in the first of which the line is a listing. -/
theorem visitWindows_cons_listing (t : Tools) {cells : List Cell} (i : Nat) {w : Window} (ws : List Window)
    (c : ColumnRecord) (cs : List ColumnRecord) (work : Work) (h : isListing w cells = true) :
    let key := listingKey t w cells
    let o := columnOutcome c key
    let next := visitWindows t cells (i + 1) ws cs (raiseOutcome t i w o work)
    visitWindows t cells i (w :: ws) (c :: cs) work =
      (⟨c.enter w work.st.line key (formText (keyField w cells)) :: next.1.columns,
        (if o = some .lt then [i] else []) ++ next.1.breaks, w.check || next.1.checked⟩, next.2) := by
  intro key o next
  have hbreaks : (if o = some .lt then i :: next.1.breaks else next.1.breaks) =
      (if o = some .lt then [i] else []) ++ next.1.breaks := by
    split <;> rfl
  rw [visitWindows, if_pos h, ← hbreaks]
  rfl

/-- The visit of windows in the first of which the line is no listing. -/
theorem visitWindows_cons_not_listing (t : Tools) {cells : List Cell} (i : Nat) {w : Window} (ws : List Window)
    (c : ColumnRecord) (cs : List ColumnRecord) (work : Work) (h : isListing w cells = false) :
    let next := visitWindows t cells (i + 1) ws cs work
    visitWindows t cells i (w :: ws) (c :: cs) work = ({ next.1 with columns := c :: next.1.columns }, next.2) := by
  rw [visitWindows, if_neg (Bool.eq_false_iff.mp h)]

/-- The windows are visited one by one, each with the work the one before it left (R92). -/
theorem visitWindows_cons (t : Tools) (cells : List Cell) (i : Nat) (w : Window) (ws : List Window) (c : ColumnRecord)
    (cs : List ColumnRecord) (work : Work) :
    let r := visitWindows t cells i [w] [c] work
    let rest := visitWindows t cells (i + 1) ws cs r.2
    visitWindows t cells i (w :: ws) (c :: cs) work =
      (⟨r.1.columns ++ rest.1.columns, r.1.breaks ++ rest.1.breaks, r.1.checked || rest.1.checked⟩, rest.2) := by
  cases h : isListing w cells
  · rw [visitWindows_cons_not_listing t i ws c cs work h, visitWindows_cons_not_listing t i [] c [] work h]
    rfl
  · rw [visitWindows_cons_listing t i ws c cs work h, visitWindows_cons_listing t i [] c [] work h]
    simp only [visitWindows, List.append_nil, Bool.or_false, List.singleton_append]

/-- What a listing enters in its column record: firsts that are not there yet, and lasts anew (R93, R94). -/
theorem ColumnRecord.enter_eq (c : ColumnRecord) (w : Window) (line : Nat) (key : Option Key) (text : Text) :
    c.enter w line key text =
    { firstKey := c.firstKey.or key
      firstLine := if w.check = true then c.firstLine.or (some line) else c.firstLine
      firstText := if w.guide = true then c.firstText.or (some text) else c.firstText
      lastKey := key.or c.lastKey
      lastText := if w.guide = true then some text else c.lastText
      listings := c.listings + 1
      breaks := if columnOutcome c key = some .lt then c.breaks + 1 else c.breaks } := by
  have hfirst {α : Type} (o x : Option α) : (if o.isNone = true then x else o) = o.or x := by cases o <;> rfl
  have hlast {α : Type} (o x : Option α) : (if o.isSome = true then o else x) = o.or x := by cases o <;> rfl
  have hgated {α : Type} (b : Bool) (o x : Option α) :
      (if (b && o.isNone) = true then x else o) = if b = true then o.or x else o := by
    cases b
    · rfl
    · exact hfirst o x
  simp only [ColumnRecord.enter, hfirst, hlast, hgated]

/-- What a listing with a key enters in the column record of its CHECK window (R93, R94). -/
theorem ColumnRecord.enter_key (c : ColumnRecord) {w : Window} (line i : Nat) (key : Key) (text : Text)
    (hcheck : w.check = true) :
    let c' := c.enter w line (some key) text
    c'.listings = c.listings + 1 ∧ c'.lastKey = some key ∧ c'.firstKey = c.firstKey.or (some key) ∧
      c'.firstLine = c.firstLine.or (some line) ∧
      (w.guide = true → c'.lastText = some text ∧ c'.firstText = c.firstText.or (some text)) ∧
      (w.guide = false → c'.lastText = c.lastText ∧ c'.firstText = c.firstText) ∧
      c'.breaks = c.breaks + (if columnOutcome c (some key) = some .lt then [i] else []).length := by
  rw [c.enter_eq]
  refine ⟨rfl, rfl, rfl, if_pos hcheck, fun hguide => by simp [hguide], fun hguide => by simp [hguide], ?_⟩
  dsimp only
  split <;> rfl

theorem columnOutcome_of_lastKey {c : ColumnRecord} {key last : Key} (h : c.lastKey = some last) :
    columnOutcome c (some key) = some (compareKeys key last) := by
  rw [columnOutcome, Option.bind_some, h, Option.map_some]

theorem columnOutcome_of_no_lastKey {c : ColumnRecord} (h : c.lastKey = none) (key : Option Key) :
    columnOutcome c key = none := by
  cases key <;> simp [columnOutcome, h]

/-- The visit of one CHECK window in which the line is a listing, under a collation table: the key it forms is entered, and
its comparison with the last key says what is raised (R93 to R95). -/
theorem visitWindows_checked_listing {t : Tools} {table : CollTable} {cells : List Cell} (i : Nat) {w : Window}
    (c : ColumnRecord) (work : Work) (h : isListing w cells = true) (hcheck : w.check = true) (hcoll : t.coll = some table) :
    let key := formKey table (keyField w cells)
    let o := columnOutcome c (some key)
    visitWindows t cells i [w] [c] work =
      (⟨[c.enter w work.st.line (some key) (formText (keyField w cells))], if o = some .lt then [i] else [], true⟩,
        raiseOutcome t i w o work) := by
  rw [visitWindows_cons_listing t i [] c [] work h, listingKey_of_check cells hcheck hcoll, hcheck]
  simp only [visitWindows, List.append_nil, Bool.or_false]

/-- The visit of one window in which the line is a listing without a key (R103). -/
theorem visitWindows_keyless_listing {t : Tools} {cells : List Cell} (i : Nat) {w : Window} (c : ColumnRecord) (work : Work)
    (h : isListing w cells = true) (hkey : w.check = false ∨ t.coll = none) :
    visitWindows t cells i [w] [c] work =
      (⟨[c.enter w work.st.line none (formText (keyField w cells))], [], w.check⟩, work) := by
  rw [visitWindows_cons_listing t i [] c [] work h, listingKey_eq_none cells hkey]
  simp [visitWindows, columnOutcome, raiseOutcome]

/-- Settles O52: one window's visit by whether the line forms a key there, and the windows one after another. -/
theorem listingsAreCheckedInColumn : Obligations.ListingsAreCheckedInColumn := by
  refine ⟨fun w cells hw => isListing_iff_position hw,
    fun table field => ⟨formKey_append_replicate .., fun h => trimEnd_getLast? _ _ h, formKey_length_le table field⟩,
    fun field => ⟨trimEnd_append_replicate .., fun h => trimEnd_getLast? _ _ h, ?text⟩, ?checked, ?windows⟩
  case text =>
    rintro ⟨c, hc, g, hbase, hg⟩
    exact formText_ne_nil hc hbase hg
  case checked =>
    intro t table cells i w c work h hcheck hcoll key entry r
    have hr : r = _ := visitWindows_checked_listing i c work h hcheck hcoll
    refine ⟨by rw [hr], ⟨_, by rw [hr], ?column⟩, ?greater, ?equal, ?less⟩
    case column =>
      rw [hr]
      exact c.enter_key work.st.line i key _ hcheck
    case greater =>
      rintro (hlast | ⟨last, hlast, hgreater⟩)
      · rw [hr, columnOutcome_of_no_lastKey hlast]
        exact ⟨rfl, rfl⟩
      · rw [hr, columnOutcome_of_lastKey hlast, hgreater]
        exact ⟨rfl, rfl⟩
    case equal =>
      intro last hlast hequal
      rw [hr, columnOutcome_of_lastKey hlast, hequal]
      exact ⟨rfl, rfl⟩
    case less =>
      intro last hlast hless
      rw [hr, columnOutcome_of_lastKey hlast, hless]
      exact ⟨rfl, rfl⟩
  case windows =>
    intro t cells i w ws c cs work r text
    refine ⟨visitWindows_cons t cells i w ws c cs work, rfl, fun h => visitWindows_cons_not_listing t i [] c [] work h,
      fun h hkey => (visitWindows_keyless_listing i c work h hkey).trans ?_⟩
    rw [c.enter_eq]
    simp [columnOutcome, text]

end Sys2Proof.Machine
end

section
/-! SUPPORT. The library under every command (R105, R106, R114, R116, R117): the counts and selections that every step keeps,
whom an order reaches, and why an entry in use stays as it is. -/

namespace Sys2Proof.Machine

variable {s t u : State} {i : StationId} {n : Nat}

/-! ## Reference counts and selections (R105, R116) -/

/-- Settles O10: every change moves the counts with the holders. -/
theorem stepKeepsReferences : Obligations.StepKeepsReferences := fun _ _ hs ht =>
  step_keeps (law := fun s => s.refsAgree = true) (fun _ _ h => h) (fun _ _ hc h => hc.refsAgree h) hs ht

/-- Settles O11: an entry that a change empties has no references, so nobody selects it. -/
theorem stepKeepsSelectionsValid : Obligations.StepKeepsSelectionsValid := by
  intro s t hs ht
  simp only [Bool.and_eq_true, State.selectionsValid_iff] at hs ⊢
  refine step_keeps (law := fun s => s.refsAgree = true ∧ s.Valid) (fun s q h => ?_) (fun s t hc h => ?_) hs ht
  · obtain ⟨hr, hv⟩ := h
    exact ⟨hr, hv.station, hv.complete, hv.park⟩
  · obtain ⟨hr, hv⟩ := h
    exact ⟨hc.refsAgree hr, hc.valid hr hv⟩

theorem Reach.refsAgree (h : Reach s t) (hs : s.refsAgree = true) : t.refsAgree = true := by
  induction h with
  | refl => exact hs
  | tail _ hc ih => exact hc.refsAgree ih

/-! ## Entries in use (R114) -/

theorem State.anyStation_iff {f : Station → Bool} : s.anyStation f = true ↔ ∃ i, f (s.station i) = true := by
  constructor
  · intro h
    by_contra hn
    simp only [not_exists, Bool.not_eq_true] at hn
    simp [State.anyStation, hn] at h
  · rintro ⟨i, hi⟩
    by_contra hn
    rw [State.anyStation_eq_false (Bool.eq_false_iff.mpr hn) i] at hi
    cases hi

theorem State.drumInUse_iff (e : Fin 8) :
    s.drumInUse e = true ↔ ∃ i, (s.station i).sel.drum = some e ∧ (s.station i).busy = true := by
  simp only [State.drumInUse, State.anyStation_iff, Bool.and_eq_true, beq_iff_eq]

theorem State.tapeInUse_iff (e : Fin 8) : s.tapeInUse e = true ↔
    ∃ i, (s.station i).sel.tape = some e ∧ ((s.station i).busy = true ∨ (s.station i).line ≠ 1) := by
  simp only [State.tapeInUse, State.anyStation_iff, Bool.and_eq_true, Bool.or_eq_true, beq_iff_eq, bne_iff_ne]

theorem State.layoutInUse_iff (e : Fin 8) :
    s.layoutInUse e = true ↔ ∃ i, (s.station i).sel.layout = some e ∧ (s.station i).busy = true := by
  simp only [State.layoutInUse, State.anyStation_iff, Bool.and_eq_true, beq_iff_eq]

theorem State.collInUse_iff (e : Fin 4) :
    s.collInUse e = true ↔ ∃ i, (s.station i).sel.coll = some e ∧ (s.station i).busy = true := by
  simp only [State.collInUse, State.anyStation_iff, Bool.and_eq_true, beq_iff_eq]

/-- The entries in use in `s` are in `t` what they are in `s`. -/
structure State.KeepsUsed (s t : State) : Prop where
  drum : ∀ e, s.drumInUse e = true → t.library.drums[e] = s.library.drums[e]
  tape : ∀ e, s.tapeInUse e = true → t.library.tapes[e] = s.library.tapes[e]
  layout : ∀ e, s.layoutInUse e = true → t.library.layouts[e] = s.library.layouts[e]
  coll : ∀ e, s.collInUse e = true → t.library.colls[e] = s.library.colls[e]

theorem State.KeepsUsed.ite {p : Prop} [Decidable p] {r r' : State × Answer} (h : s.KeepsUsed r.1) (h' : s.KeepsUsed r'.1) :
    s.KeepsUsed (if p then r else r').1 := by
  split
  · exact h
  · exact h'

/-- Writing an entry that is not in use leaves those that are. -/
theorem getElem_set_of_used {α : Type} {used : Fin n → Bool} {k e : Fin n} (v : Vector α n) (x : α)
    (hk : used k = false) (he : used e = true) : (v.set k x)[e] = v[e] := by
  have hne : k.val ≠ e.val := fun h => by
    rw [Fin.ext h, he] at hk
    cases hk
  simp [hne]

/-! ## The tables an order writes (R106, R117) -/

/-- What a load or a LIBRARY CLEAR leaves: nothing changed, one entry written that is not in use, or the dispositions. -/
inductive TableWrite (s : State) : State → Prop where
  | same : TableWrite s s
  | drum (e : Fin 8) (x : Option DrumTable) (hu : s.drumInUse e = false) :
      TableWrite s { s with library := { s.library with drums := s.library.drums.set e x } }
  | tape (e : Fin 8) (x : Option Tape) (hu : s.tapeInUse e = false) :
      TableWrite s { s with library := { s.library with tapes := s.library.tapes.set e x } }
  | layout (e : Fin 8) (x : Option Layout) (hu : s.layoutInUse e = false) :
      TableWrite s { s with library := { s.library with layouts := s.library.layouts.set e x } }
  | coll (e : Fin 4) (x : Option CollTable) (hu : s.collInUse e = false) :
      TableWrite s { s with library := { s.library with colls := s.library.colls.set e x } }
  | dispositions (x : Dispositions) : TableWrite s { s with library := { s.library with dispositions := x } }

theorem TableWrite.keepsUsed (h : TableWrite s t) : s.KeepsUsed t := by
  cases h with
  | drum e x hu => exact ⟨fun _ => getElem_set_of_used _ _ hu, fun _ _ => rfl, fun _ _ => rfl, fun _ _ => rfl⟩
  | tape e x hu => exact ⟨fun _ _ => rfl, fun _ => getElem_set_of_used _ _ hu, fun _ _ => rfl, fun _ _ => rfl⟩
  | layout e x hu => exact ⟨fun _ _ => rfl, fun _ _ => rfl, fun _ => getElem_set_of_used _ _ hu, fun _ _ => rfl⟩
  | coll e x hu => exact ⟨fun _ _ => rfl, fun _ _ => rfl, fun _ _ => rfl, fun _ => getElem_set_of_used _ _ hu⟩
  | _ => exact ⟨fun _ _ => rfl, fun _ _ => rfl, fun _ _ => rfl, fun _ _ => rfl⟩

/-- Such an order leaves every station, the park slots, the port, the pointer and the reference counts alone. -/
theorem TableWrite.frame (h : TableWrite s t) : (∀ j, t.station j = s.station j) ∧ t.parks = s.parks ∧ t.port = s.port ∧
    t.pointer = s.pointer ∧ t.library.refs = s.library.refs := by
  cases h <;> exact ⟨fun _ => rfl, rfl, rfl, rfl, rfl⟩

/-- An order refused at a check writes nothing. -/
theorem TableWrite.ite_not {p : Prop} [Decidable p] {a : Answer} {r : State × Answer} (h : ¬ p → TableWrite s r.1) :
    TableWrite s (if p then (s, a) else r).1 := by
  split
  · exact .same
  · exact h ‹_›

theorem orderLoadDrum_writes (data : List Byte) (s : State) : TableWrite s (orderLoadDrum data s).1 := by
  unfold orderLoadDrum
  split
  · split
    · exact .same
    · split
      · exact .ite_not fun _ => .ite_not fun hu => .drum _ _ (by simpa using hu)
      · exact .same
  · exact .same

theorem orderLoadTape_writes (data : List Byte) (s : State) : TableWrite s (orderLoadTape data s).1 := by
  unfold orderLoadTape
  split
  · split
    · exact .same
    · split
      · exact .ite_not fun _ => .ite_not fun _ => .ite_not fun _ => .ite_not fun hu => .tape _ _ (by simpa using hu)
      · exact .same
  · exact .same

theorem orderLoadLayout_writes (data : List Byte) (s : State) : TableWrite s (orderLoadLayout data s).1 := by
  unfold orderLoadLayout
  split
  · refine .ite_not fun _ => ?_
    split
    · exact .ite_not fun _ => .ite_not fun hu => .layout _ _ (by simpa using hu)
    · exact .same
  · exact .same

theorem orderLoadCollation_writes (data : List Byte) (s : State) : TableWrite s (orderLoadCollation data s).1 := by
  unfold orderLoadCollation
  split
  · refine .ite_not fun _ => ?_
    split
    · exact .same
    · exact .ite_not fun hu => .coll _ _ (by simpa using hu)
  · exact .same

theorem orderLoadConditions_writes (data : List Byte) (s : State) : TableWrite s (orderLoadConditions data s).1 := by
  refine .ite_not fun _ => ?_
  split
  · exact .same
  · exact .dispositions _

section
variable {pick : Selections → Option (Fin n)} {v : Vector Nat n} {e : Fin n} {f : Station → Bool}

/-- An entry without references is in use nowhere (R114, R116). -/
theorem State.anyStation_of_no_refs (h : s.counts pick v) (he : v[e] = 0) :
    s.anyStation (fun st => pick st.sel == some e && f st) = false := by
  rw [Bool.eq_false_iff, ne_eq, State.anyStation_iff]
  rintro ⟨i, hi⟩
  simp only [Bool.and_eq_true, beq_iff_eq] at hi
  exact State.counts_zero h he (.inl ⟨i, rfl⟩) hi.1

end

/-- LIBRARY CLEAR empties an entry without references, which is not in use (R116, R117). -/
theorem orderLibraryClear_writes (params : List Byte) (hs : s.refsAgree = true) :
    TableWrite s (orderLibraryClear params s).1 := by
  obtain ⟨hd, ht, hl, hc⟩ := (State.refsAgree_iff s).mp hs
  unfold orderLibraryClear
  split
  · split_ifs
    · split
      · exact .same
      · exact .ite_not fun hr => .drum _ _ (State.anyStation_of_no_refs hd (not_not.mp hr))
    · split
      · exact .same
      · exact .ite_not fun hr => .tape _ _ (State.anyStation_of_no_refs ht (not_not.mp hr))
    · split
      · exact .same
      · exact .ite_not fun hr => .layout _ _ (State.anyStation_of_no_refs hl (not_not.mp hr))
    · split
      · exact .same
      · exact .ite_not fun hr => .coll _ _ (State.anyStation_of_no_refs hc (not_not.mp hr))
    · exact .same
  · exact .same

/-! ## The orders of one station -/

/-- The drums, tapes, layouts, collation tables and dispositions are the same; the reference counts are free. -/
structure Library.SameTables (a b : Library) : Prop where
  drums : b.drums = a.drums
  tapes : b.tapes = a.tapes
  layouts : b.layouts = a.layouts
  colls : b.colls = a.colls
  dispositions : b.dispositions = a.dispositions

theorem Library.SameTables.refl (a : Library) : a.SameTables a := ⟨rfl, rfl, rfl, rfl, rfl⟩

theorem Library.SameTables.of_eq {a b : Library} (h : b = a) : a.SameTables b := h ▸ .refl a

theorem State.KeepsUsed.of_tables (h : s.library.SameTables t.library) : s.KeepsUsed t := by
  obtain ⟨hd, ht, hl, hc, -⟩ := h
  constructor
  · simp [hd]
  · simp [ht]
  · simp [hl]
  · simp [hc]

theorem State.KeepsUsed.of_library (h : t.library = s.library) : s.KeepsUsed t := .of_tables (.of_eq h)

theorem State.KeepsUsed.refl (s : State) : s.KeepsUsed s := .of_library rfl

/-- What an order of station `i` may change: that station, the park slots, the reference counts and the link. -/
structure State.OwnedBy (i : StationId) (s t : State) : Prop where
  others : ∀ j, j ≠ i → t.station j = s.station j
  port : t.port = s.port
  pointer : t.pointer = s.pointer
  tables : s.library.SameTables t.library

theorem State.OwnedBy.refl (s : State) : s.OwnedBy i s := ⟨fun _ _ => rfl, rfl, rfl, .refl _⟩

theorem State.OwnedBy.of_station {st : Station} (hs : ∀ j, t.station j = (s.setStation i st).station j)
    (hp : t.port = s.port) (hr : t.pointer = s.pointer) (ht : s.library.SameTables t.library) : s.OwnedBy i t where
  others j hj := (hs j).trans (State.station_setStation_ne s st hj.symm)
  port := hp
  pointer := hr
  tables := ht

theorem State.OwnedBy.setStation (st : Station) : s.OwnedBy i (s.setStation i st) :=
  .of_station (fun _ => rfl) rfl rfl (.refl _)

theorem State.OwnedBy.ite {p : Prop} [Decidable p] {r r' : State × Answer} (h : s.OwnedBy i r.1) (h' : s.OwnedBy i r'.1) :
    s.OwnedBy i (if p then r else r').1 := by
  split
  · exact h
  · exact h'

/-- An order refused at a check changes nothing. -/
theorem State.OwnedBy.ite_not {p : Prop} [Decidable p] {a : Answer} {r : State × Answer} (h : s.OwnedBy i r.1) :
    s.OwnedBy i (if p then (s, a) else r).1 := .ite (.refl s) h

theorem State.OwnedBy.stationOrder (params : List Byte) (f : Byte → Byte → Byte → Byte → Station → Station × Answer) :
    s.OwnedBy i (s.stationOrder i params f).1 := by
  unfold State.stationOrder
  split
  · exact .setStation _
  · exact .refl s

theorem orderPrint_owned (seq : Bool) (data : List Byte) : s.OwnedBy i (orderPrint i seq data s).1 := by
  unfold orderPrint
  split
  · exact .refl s
  · exact .setStation _

theorem orderMove_owned (seq : Bool) (data : List Byte) : s.OwnedBy i (orderMove i seq data s).1 := by
  unfold orderMove
  split
  · exact .setStation _
  · exact .refl s

theorem orderSelect_owned (data : List Byte) : s.OwnedBy i (orderSelect i data s).1 := by
  unfold orderSelect
  split
  · split
    · exact .ite_not <| .ite_not <| .ite_not <| .ite_not <| .of_station (fun _ => rfl) rfl rfl ⟨rfl, rfl, rfl, rfl, rfl⟩
    · exact .refl s
  · exact .refl s

theorem orderPark_owned (params : List Byte) : s.OwnedBy i (orderPark i params s).1 := by
  unfold orderPark
  split
  · split
    · exact .refl s
    · exact .ite_not <| .ite_not <| .ite_not <| .of_station (fun _ => rfl) rfl rfl (.refl _)
  · exact .refl s

theorem orderResume_owned (params : List Byte) : s.OwnedBy i (orderResume i params s).1 := by
  unfold orderResume
  split
  · split
    · exact .refl s
    · refine .ite_not <| .ite_not <| .ite_not ?_
      split
      · exact .refl s
      · exact .of_station (fun _ => rfl) rfl rfl ⟨rfl, rfl, rfl, rfl, rfl⟩
  · exact .refl s

theorem orderStation_owned (data : List Byte) : s.OwnedBy i (orderStation i data s).1 := by
  refine .ite_not ?_
  split
  · exact .refl s
  · exact .ite (.stationOrder ..) <| .ite (.stationOrder ..) <| .ite (.stationOrder ..) <| .ite (.stationOrder ..) <|
      .ite (.stationOrder ..) <| .ite (.stationOrder ..) <| .ite (orderPark_owned _) <| .ite (orderResume_owned _) <|
      .ite (.stationOrder ..) <| .ite (.stationOrder ..) <| .ite (.stationOrder ..) (.refl s)

theorem orderSense_owned (data : List Byte) : s.OwnedBy i (orderSense i data s).1 := by
  unfold orderSense
  split
  · exact .of_station (fun _ => rfl) rfl rfl (.refl _)
  · exact .refl s

theorem orderReport_owned (data : List Byte) : s.OwnedBy i (orderReport i data s).1 := by
  unfold orderReport
  split
  · exact .setStation _
  · exact .refl s

/-! ## Whom an order reaches (R106, R170, R174) -/

theorem carryOut_station_owned (data : List Byte) {l : Lead} (hl : l.code ∈ [0x01, 0x02, 0x03, 0x09, 0x0A, 0x0B]) :
    s.OwnedBy l.station (carryOut l data s).1 := by
  obtain ⟨i, seq, code⟩ := l
  simp only [List.mem_cons, List.not_mem_nil, or_false] at hl
  rcases hl with rfl | rfl | rfl | rfl | rfl | rfl
  · exact orderPrint_owned seq data
  · exact orderMove_owned seq data
  · exact orderSelect_owned data
  · exact orderStation_owned data
  · exact orderSense_owned data
  · exact orderReport_owned data

theorem carryOut_load_writes (data : List Byte) {l : Lead} (hl : l.code ∈ [0x04, 0x05, 0x06, 0x07, 0x08, 0x0D]) :
    TableWrite s (carryOut l data s).1 := by
  obtain ⟨i, seq, code⟩ := l
  simp only [List.mem_cons, List.not_mem_nil, or_false] at hl
  rcases hl with rfl | rfl | rfl | rfl | rfl | rfl
  · exact orderLoadDrum_writes data s
  · exact orderLoadTape_writes data s
  · exact orderLoadLayout_writes data s
  · exact orderLoadCollation_writes data s
  · exact orderLoadConditions_writes data s
  · exact .same

/-- A frame is answered on the state as it was, or on what its order left. -/
theorem State.answerFrame_cases (s : State) (l : Lead) (data : List Byte) (sum : Byte) :
    ∃ u a, s.answerFrame l data sum = State.owe u l a ∧ (u = s ∨ u = (carryOut l data s).1) := by
  by_cases hs : sum = 0
  · rw [hs, State.answerFrame_right]
    exact ⟨_, _, rfl, .inr rfl⟩
  · rw [State.answerFrame_wrong hs]
    exact ⟨_, _, rfl, .inl rfl⟩

/-- Settles O16: by the owner of the order's code. -/
theorem orderReachesOnlyItsOwner : Obligations.OrderReachesOnlyItsOwner := by
  intro c f s t hf ha hd hl ht
  rw [exec_of_orderFrame hf ha hl, State.arbitrate_of_not_due _ hd] at ht
  cases ht
  obtain ⟨u, a, hu, hcase⟩ := s.answerFrame_cases f.lead f.data f.sum
  rw [hu]
  refine ⟨fun hc => ?station, fun hc => ?load⟩
  case station =>
    have owned : s.OwnedBy f.lead.station u := by
      rcases hcase with rfl | rfl
      · exact .refl _
      · exact carryOut_station_owned f.data hc
    obtain ⟨hothers, hport, hpointer, hdrums, htapes, hlayouts, hcolls, hdispositions⟩ := owned
    exact ⟨hothers, hport, hpointer, hdrums, htapes, hlayouts, hcolls, hdispositions⟩
  case load =>
    have written : TableWrite s u := by
      rcases hcase with rfl | rfl
      · exact .same
      · exact carryOut_load_writes f.data hc
    exact written.frame

/-! ## The DEVICE orders -/

theorem State.setDebounced_library (l : Line) (b : Bool) : (s.setDebounced l b).library = s.library := by
  unfold State.setDebounced
  split
  · rfl
  · cases l with
    | ready => exact (State.readyMove_keeps b).2.1
    | fault => exact (State.faultMove_keeps b).2.1
    | _ => rfl

theorem State.takeRaw_library (l : Line) : (s.takeRaw l).library = s.library := by
  unfold State.takeRaw
  split
  · exact State.setDebounced_library l _
  · rfl

theorem State.applySetup_library (x : ImagerSetup) : (s.applySetup x).library = s.library := by
  simp only [State.applySetup, List.foldl_cons, List.foldl_nil, State.takeRaw_library]

theorem orderAttentionSetup_library (params : List Byte) : (orderAttentionSetup params s).1.library = s.library := by
  unfold orderAttentionSetup
  split
  · split
    · rfl
    · split <;> rfl
  · rfl

theorem orderImagerSetup_library (params : List Byte) : (orderImagerSetup params s).1.library = s.library := by
  unfold orderImagerSetup
  split
  · rfl
  · split
    · rfl
    · dsimp only
      exact State.applySetup_library _

theorem State.deviceClear_tables (s : State) : s.library.SameTables s.deviceClear.library := ⟨rfl, rfl, rfl, rfl, rfl⟩

theorem orderDeviceClear_tables (params : List Byte) : s.library.SameTables (orderDeviceClear params s).1.library := by
  unfold orderDeviceClear
  split
  · exact s.deviceClear_tables
  · exact .refl _

theorem orderDevice_keepsUsed (data : List Byte) (hs : s.refsAgree = true) : s.KeepsUsed (orderDevice data s).1 := by
  unfold orderDevice
  split
  · exact .refl s
  · exact .ite (.of_library (orderAttentionSetup_library _)) <| .ite (.of_library (orderImagerSetup_library _)) <|
      .ite (.of_tables (orderDeviceClear_tables _)) <| .ite (orderLibraryClear_writes _ hs).keepsUsed (.refl s)

/-! ## Entries in use under every command (R116) -/

/-- An order changes no entry that is in use where it is carried out. -/
theorem carryOut_keepsUsed (l : Lead) (data : List Byte) (hs : s.refsAgree = true) : s.KeepsUsed (carryOut l data s).1 := by
  by_cases hstation : l.code ∈ [0x01, 0x02, 0x03, 0x09, 0x0A, 0x0B]
  · exact .of_tables (carryOut_station_owned data hstation).tables
  · by_cases hload : l.code ∈ [0x04, 0x05, 0x06, 0x07, 0x08, 0x0D]
    · exact (carryOut_load_writes data hload).keepsUsed
    · simp only [List.mem_cons, List.not_mem_nil, or_false, not_or] at hstation hload
      obtain ⟨h1, h2, h3, h9, hA, hB⟩ := hstation
      obtain ⟨h4, h5, h6, h7, h8, hD⟩ := hload
      simp only [carryOut, h1, h2, h3, h4, h5, h6, h7, h8, h9, hA, hB, hD, if_false]
      split
      · exact orderDevice_keepsUsed data hs
      · exact .refl s

theorem State.answerFrame_keepsUsed (l : Lead) (data : List Byte) (sum : Byte) (hs : s.refsAgree = true) :
    s.KeepsUsed (s.answerFrame l data sum) := by
  obtain ⟨u, a, hu, hcase⟩ := s.answerFrame_cases l data sum
  have kept : s.KeepsUsed u := by
    rcases hcase with h | h <;> rw [h]
    · exact .refl s
    · exact carryOut_keepsUsed l data hs
  rw [hu]
  exact ⟨kept.drum, kept.tape, kept.layout, kept.coll⟩

/-- What bytes on the link can do: the receive state moves on, and at most one frame is then answered. -/
def State.Received (s t : State) : Prop :=
  ∃ r b, t = s.setReceive r b ∨ ∃ l data sum, t = (s.setReceive r b).answerFrame l data sum

theorem State.Received.refl (s : State) : s.Received s := ⟨s.link.receive, s.link.interByte, .inl rfl⟩

theorem State.Received.setReceive (r : Receive) (b : Bool) : s.Received (s.setReceive r b) := ⟨r, b, .inl rfl⟩

theorem State.Received.answerFrame (l : Lead) (data : List Byte) (sum : Byte) : s.Received (s.answerFrame l data sum) :=
  ⟨s.link.receive, s.link.interByte, .inr ⟨l, data, sum, rfl⟩⟩

theorem State.takeByte_received (b : Byte) : s.Received (s.takeByte b) := by
  unfold State.takeByte
  split
  · exact .setReceive _ _
  · unfold State.frameByte
    split
    · dsimp only
      split
      · exact .setReceive _ _
      · split
        · exact .answerFrame _ _ _
        · exact .setReceive _ _
    · exact .setReceive _ _
  · exact .setReceive _ _
  · exact .refl s
  · exact .refl s

/-- Bytes offered while a status is owed are not taken (R167). -/
theorem State.foldl_takeByte_owed {b : Byte} {tail : List Byte} (h : s.link.receive = .statusOwed b tail) (bytes : List Byte) :
    bytes.foldl State.takeByte s = s := by
  induction bytes with
  | nil => rfl
  | cons c bytes ih => rw [List.foldl_cons, show s.takeByte c = s by simp [State.takeByte, h], ih]

theorem State.answerFrame_owed (l : Lead) (data : List Byte) (sum : Byte) :
    ∃ b tail, (s.answerFrame l data sum).link.receive = .statusOwed b tail := by
  obtain ⟨u, a, hu, -⟩ := s.answerFrame_cases l data sum
  rw [hu]
  exact ⟨_, _, State.owe_receive ..⟩

theorem State.foldl_takeByte_received (bytes : List Byte) (s : State) : s.Received (bytes.foldl State.takeByte s) := by
  induction bytes generalizing s with
  | nil => exact .refl s
  | cons c bytes ih =>
    rw [List.foldl_cons]
    obtain ⟨r, b, h | ⟨l, data, sum, h⟩⟩ := s.takeByte_received c
    · rw [h]
      exact ih (s.setReceive r b)
    · rw [h]
      obtain ⟨x, tail, howed⟩ := (s.setReceive r b).answerFrame_owed l data sum
      rw [State.foldl_takeByte_owed howed]
      exact ⟨r, b, .inr ⟨l, data, sum, rfl⟩⟩

theorem State.receiveOrder_received (h : Head) (code : BitVec 5) (data : List Byte) :
    s.Received (s.receiveOrder h code data) := by
  unfold State.receiveOrder
  dsimp only
  split
  · split
    · exact .answerFrame _ _ _
    · exact State.foldl_takeByte_received _ s
  · exact State.foldl_takeByte_received _ s

theorem State.Received.keepsUsed (h : s.Received t) (hs : s.refsAgree = true) : s.KeepsUsed t := by
  obtain ⟨r, b, rfl | ⟨l, data, sum, rfl⟩⟩ := h
  · exact .of_library rfl
  · have kept := (s.setReceive r b).answerFrame_keepsUsed l data sum hs
    exact ⟨kept.drum, kept.tape, kept.layout, kept.coll⟩

/-- A choice of the arbiter leaves every station's selections, page, strikes and line alone. -/
theorem State.arbitrate_use (s : State) (j : StationId) : (s.arbitrate.station j).sel = (s.station j).sel ∧
    (s.arbitrate.station j).busy = (s.station j).busy ∧ (s.arbitrate.station j).line = (s.station j).line := by
  rcases s.arbitrate_cases with h | ⟨i, p, rest, -, -, -, h⟩ <;> rw [h]
  · exact ⟨rfl, rfl, rfl⟩
  · change ((s.setStation i _).station j).sel = _ ∧ ((s.setStation i _).station j).busy = _ ∧
      ((s.setStation i _).station j).line = _
    rw [State.station_setStation]
    split
    · subst_vars
      exact ⟨rfl, rfl, rfl⟩
    · exact ⟨rfl, rfl, rfl⟩

/-- What is kept after the arbiter's choice is kept over both. -/
theorem State.KeepsUsed.arbitrate (h : s.arbitrate.KeepsUsed t) : s.KeepsUsed t := by
  obtain ⟨hd, ht, hl, hc⟩ := h
  simp only [State.drumInUse, State.anyStation, State.arbitrate_use, State.arbitrate_library] at hd
  simp only [State.tapeInUse, State.anyStation, State.arbitrate_use, State.arbitrate_library] at ht
  simp only [State.layoutInUse, State.anyStation, State.arbitrate_use, State.arbitrate_library] at hl
  simp only [State.collInUse, State.anyStation, State.arbitrate_use, State.arbitrate_library] at hc
  exact ⟨hd, ht, hl, hc⟩

/-! ## Events leave the library alone -/

theorem State.spoilFlight_library (timeout : Bool) (d : PortState) : (s.spoilFlight timeout d).library = s.library := by
  unfold State.spoilFlight
  split <;> rfl

theorem State.beforeLine_library (l : Line) (b : Bool) : (s.beforeLine l b).library = s.library := by
  rcases s.beforeLine_cases l b with h | ⟨-, -, -, -, h⟩ <;> rw [h]
  exact s.arbitrate_library

theorem State.debouncedEvent_library (l : Line) (b : Bool) : (s.debouncedEvent l b).library = s.library := by
  unfold State.debouncedEvent
  split
  · rfl
  · exact State.setDebounced_library l b

theorem State.rawChange_library (l : Line) (b : Bool) : (s.rawChange l b).library = s.library := by
  refine (State.takeRaw_library l).trans ?_
  rw [State.setRaw_library]
  split
  · exact State.beforeLine_library l b
  · exact s.arbitrate_library

theorem State.pageCloseSent_library : s.pageCloseSent.library = s.library := by
  unfold State.pageCloseSent
  split
  · split <;> rfl
  · rfl

theorem State.pageVoidSent_library : s.pageVoidSent.library = s.library := by
  unfold State.pageVoidSent
  split <;> rfl

theorem State.portTimeout_library (b : Bool) : (s.portTimeout b).library = s.library := by
  unfold State.portTimeout
  split
  · exact State.spoilFlight_library ..
  · rfl

theorem State.replyTaken_library : s.replyTaken.library = s.library := by
  unfold State.replyTaken
  split <;> rfl

theorem State.replyRefused_library : s.replyRefused.library = s.library := by
  unfold State.replyRefused
  split
  · split <;> rfl
  · rfl

theorem State.replyImaged_library (a : Byte) (n : Half) : (s.replyImaged a n).library = s.library := by
  unfold State.replyImaged
  split <;> rfl

theorem State.replySpoiled_library (a : Byte) (n : Half) : (s.replySpoiled a n).library = s.library := by
  unfold State.replySpoiled
  split
  · rfl
  · exact State.spoilFlight_library ..

theorem State.checkedReply_library (sum : Byte) {take : State → State} (h : (take s).library = s.library) :
    (s.checkedReply sum take).library = s.library := by
  unfold State.checkedReply
  split
  · exact h
  · rfl

theorem readImagerBytes_library (bytes : List Byte) (s : State) : (readImagerBytes bytes s).library = s.library := by
  have next : ∀ (s : State) (sum : Byte) {take : State → State}, (∀ u, (take u).library = u.library) →
      (s.arbitrate.checkedReply sum take).library = s.library := fun s sum _ h =>
    (State.checkedReply_library sum (h _)).trans s.arbitrate_library
  fun_induction Sys2Proof.Machine.readImagerBytes bytes s with
  | case2 s c rest ih => exact ih.trans (next s _ fun _ => State.replyTaken_library)
  | case4 s r c rest _ ih => exact ih.trans (next s _ fun _ => State.replyRefused_library)
  | case6 s i p1 p0 c rest _ _ ih => exact ih.trans (next s _ fun _ => State.replyImaged_library _ _)
  | case8 s i p1 p0 c rest _ _ _ ih => exact ih.trans (next s _ fun _ => State.replySpoiled_library _ _)
  | _ => exact State.arbitrate_library _

theorem State.interByteExpiry_library : s.interByteExpiry.library = s.library := by
  unfold State.interByteExpiry
  split
  · split <;> rfl
  · rfl

theorem State.readStatus_library : s.readStatus.library = s.library := by
  unfold State.readStatus
  split <;> rfl

theorem State.linkRelease_library : s.linkRelease.library = s.library := by
  unfold State.linkRelease
  split <;> rfl

/-- After the arbiter's choice a command other than POWER_ON is taken from the print link, or leaves the library alone. -/
theorem exec_receives {c : Instr} (hc : c ≠ .powerOn) (s : State) :
    ∃ t, exec c s = .next t ∧ (s.arbitrate.Received t ∨ t.library = s.library) := by
  have arb : ∀ {t : State}, t.library = s.arbitrate.library → s.arbitrate.Received t ∨ t.library = s.library := fun h =>
    .inr (h.trans s.arbitrate_library)
  cases c with
  | powerOn => exact absurd rfl hc
  | byteTaken b => exact ⟨_, rfl, .inl (State.takeByte_received b)⟩
  | linkReset => exact ⟨_, rfl, arb rfl⟩
  | linkResetRelease => exact ⟨_, rfl, arb State.linkRelease_library⟩
  | endingStatusRead => exact ⟨_, rfl, arb State.readStatus_library⟩
  | interByteTimerExpiry => exact ⟨_, rfl, arb State.interByteExpiry_library⟩
  | idleTimerExpiry i => exact ⟨_, rfl, arb rfl⟩
  | rawLevelChange l b => exact ⟨_, rfl, .inr (State.rawChange_library l b)⟩
  | debouncedReadyFall =>
    exact ⟨_, rfl, .inr ((State.debouncedEvent_library _ _).trans (State.beforeLine_library _ _))⟩
  | debouncedFaultRise =>
    exact ⟨_, rfl, .inr ((State.debouncedEvent_library _ _).trans (State.beforeLine_library _ _))⟩
  | debouncedReadyRise => exact ⟨_, rfl, arb (State.debouncedEvent_library _ _)⟩
  | debouncedFaultFall => exact ⟨_, rfl, arb (State.debouncedEvent_library _ _)⟩
  | debouncedCoverChange b => exact ⟨_, rfl, arb (State.debouncedEvent_library _ _)⟩
  | debouncedMediaLowChange b => exact ⟨_, rfl, arb (State.debouncedEvent_library _ _)⟩
  | holdSwitchOn => exact ⟨_, rfl, arb (State.debouncedEvent_library _ _)⟩
  | holdSwitchOff => exact ⟨_, rfl, arb (State.debouncedEvent_library _ _)⟩
  | arbiterChoice => exact ⟨_, rfl, arb rfl⟩
  | pageCloseSent => exact ⟨_, rfl, arb State.pageCloseSent_library⟩
  | pageVoidSent => exact ⟨_, rfl, arb State.pageVoidSent_library⟩
  | taken sum => exact ⟨_, rfl, arb (State.checkedReply_library sum State.replyTaken_library)⟩
  | refused reason sum => exact ⟨_, rfl, arb (State.checkedReply_library sum State.replyRefused_library)⟩
  | imaged station page sum => exact ⟨_, rfl, arb (State.checkedReply_library sum (State.replyImaged_library _ _))⟩
  | spoiled station page sum => exact ⟨_, rfl, arb (State.checkedReply_library sum (State.replySpoiled_library _ _))⟩
  | replyTimerExpiry => exact ⟨_, rfl, arb (State.portTimeout_library _)⟩
  | imagingTimerExpiry => exact ⟨_, rfl, arb (State.portTimeout_library _)⟩
  | imagerLinkQuietTest bytes => exact ⟨_, rfl, .inr (readImagerBytes_library bytes s)⟩
  | _ => exact ⟨_, rfl, .inl (State.receiveOrder_received _ _ _)⟩

/-- Settles O35: a frame is carried out where the same entries are in use as before the command, and writes none of them. -/
theorem usedEntriesNeverChange : Obligations.UsedEntriesNeverChange := by
  intro s t c hs hc ht
  obtain ⟨u, hu, hcase⟩ := exec_receives hc s
  rw [hu] at ht
  cases ht
  have kept : s.KeepsUsed t := by
    rcases hcase with h | h
    · exact (h.keepsUsed ((Reach.arbitrate s).refsAgree hs)).arbitrate
    · exact .of_library h
  exact ⟨kept.drum, kept.tape, kept.layout, kept.coll⟩

end Sys2Proof.Machine
end

section
/-! SUPPORT. The loads and LIBRARY CLEAR field by field (R106 to R113, R117, R180): the codes of elements and windows, and the
effect of each order. -/

namespace Sys2Proof.Machine

variable {s : State} {h : Head}

/-- An accepted order is answered as its owner says. -/
theorem exec_answered {c : Instr} {code : BitVec 5} {data : List Byte} {t : State} {a : Answer}
    (hc : orderFrame c = some ⟨leadOf h code, data, h.sum⟩) (ha : s.accepts h) (hl : data.length ≤ 1023)
    (hr : carryOut (leadOf h code) data s = (t, a)) : exec c s = .next (t.owe (leadOf h code) a) := by
  obtain ⟨hlink, hsum, hdue⟩ := ha
  have he := exec_of_accepted hc hlink hdue hsum hl
  rwa [hr] at he

/-! ## LIBRARY CLEAR (R117) -/

/-- An accepted LIBRARY CLEAR is answered as `orderLibraryClear` says. -/
theorem exec_libraryClear (ha : s.accepts h) {kind e : Byte} {t : State} {a : Answer}
    (hr : orderLibraryClear [kind, e] s = (t, a)) :
    exec (.libraryClear h [kind, e]) s = .next (t.owe (leadOf h 0x0C) a) :=
  exec_answered rfl ha (by simp) hr

theorem exec_libraryClear_ite (ha : s.accepts h) {kind e : Byte} {t : State} {refs : Nat}
    (hr : orderLibraryClear [kind, e] s = if refs ≠ 0 then (s, .refused .inUse) else (t, .done)) :
    exec (.libraryClear h [kind, e]) s =
      if refs = 0 then .next (t.owe (leadOf h 0x0C) .done) else .next (s.owe (leadOf h 0x0C) (.refused .inUse)) := by
  by_cases h0 : refs = 0
  · rw [if_neg (not_not.mpr h0)] at hr
    rw [if_pos h0, exec_libraryClear ha hr]
  · rw [if_pos h0] at hr
    rw [if_neg h0, exec_libraryClear ha hr]

theorem orderLibraryClear_badField {kind e : Byte} (hb : 4 ≤ kind.toNat ∨ 8 ≤ e.toNat ∨ kind = 0x03 ∧ 4 ≤ e.toNat) :
    orderLibraryClear [kind, e] s = (s, .refused .badField) := by
  by_cases hk : 4 ≤ kind.toNat
  · have ne : ∀ k : Byte, k.toNat < 4 → kind ≠ k := fun k hlt heq => by
      rw [heq] at hk
      omega
    simp [orderLibraryClear, ne]
  · have h4 : kind = 0x03 → entryOf 4 e = none := fun h3 => entryOf_eq_none (by omega)
    have h8 : kind ≠ 0x03 → entryOf 8 e = none := fun h3 => entryOf_eq_none (by simp_all)
    unfold orderLibraryClear
    by_cases h3 : kind = 0x03
    · simp [h3, h4]
    · have hne : kind ≠ 3#8 := h3
      simp [h8 h3, hne]

/-- Settles O34: by the kind of the entry. -/
theorem libraryClearEmpties : Obligations.LibraryClearEmpties := by
  intro s h ha
  have entry8 := fun e => entryOf_byteOf (n := 8) (by decide) e
  have entry4 := fun e => entryOf_byteOf (n := 4) (by decide) e
  refine ⟨fun e => exec_libraryClear_ite ha ?_, fun e => exec_libraryClear_ite ha ?_, fun e => exec_libraryClear_ite ha ?_,
    fun e => exec_libraryClear_ite ha ?_, fun kind e hb => exec_libraryClear ha (orderLibraryClear_badField hb)⟩
  · simp [orderLibraryClear, entry8]
  · simp [orderLibraryClear, entry8]
  · simp [orderLibraryClear, entry8]
  · simp [orderLibraryClear, entry4]

/-! ## Elements read -/

theorem readAll_eq_none {α β : Type} {f : α → Option β} {l : List α} : readAll f l = none ↔ ∃ a ∈ l, f a = none := by
  induction l with
  | nil => simp [readAll]
  | cons a l ih =>
    cases ha : f a with
    | none => simp [readAll, ha]
    | some b => simp [readAll, ha, ih]

theorem readAll_isSome {α β : Type} {f : α → Option β} {l : List α} (h : ∀ a ∈ l, f a ≠ none) :
    ∃ r, readAll f l = some r := by
  rw [← Option.ne_none_iff_exists', ne_eq, readAll_eq_none]
  rintro ⟨a, ha, hn⟩
  exact h a ha hn

theorem length_flatMap_pairs (pairs : List (Byte × Byte)) : (pairs.flatMap fun p => [p.1, p.2]).length = 2 * pairs.length := by
  simp [List.length_flatMap, Nat.mul_comm]

/-! ## LOAD DRUM (R107, R108) -/

theorem codeOf_eq_none {g : Byte} : codeOf g = none ↔ g = 0 ∨ 251 ≤ g.toNat := by
  have h0 : g = 0 ↔ g.toNat = 0 := BitVec.toNat_inj.symm
  rw [h0, codeOf]
  split
  · simp only [reduceCtorEq, false_iff]
    omega
  · simp only [true_iff]
    omega

theorem codeOf_val {g : Code} (hg : g.val ≠ 0) : codeOf (BitVec.ofNat 8 g.val) = some g := by
  have hlt := g.isLt
  have hval : (BitVec.ofNat 8 g.val).toNat = g.val := by
    rw [BitVec.toNat_ofNat]
    omega
  simp only [codeOf, hval]
  exact dif_pos ⟨by omega, hlt⟩

/-- The two-byte elements that are none: a kind above 4, or a GLYPH or SUBSTITUTE without a glyph code (R107, R180). -/
theorem drumEntryOf_eq_none {k g : Byte} :
    drumEntryOf k g = none ↔ 5 ≤ k.toNat ∨ (k = 0x01 ∨ k = 0x04) ∧ (g = 0 ∨ 251 ≤ g.toNat) := by
  by_cases h5 : 5 ≤ k.toNat
  · have ne : ∀ j : Byte, j.toNat < 5 → k ≠ j := fun j hlt heq => by
      rw [heq] at h5
      omega
    simp [drumEntryOf, ne, h5]
  · have hk : k = 0x00 ∨ k = 0x01 ∨ k = 0x02 ∨ k = 0x03 ∨ k = 0x04 := by
      simp only [← BitVec.toNat_inj]
      change _ = 0 ∨ _ = 1 ∨ _ = 2 ∨ _ = 3 ∨ _ = 4
      omega
    rcases hk with rfl | rfl | rfl | rfl | rfl <;> simp [drumEntryOf, codeOf_eq_none]

/-- An accepted LOAD DRUM is answered as `orderLoadDrum` says. -/
theorem exec_loadDrum (ha : s.accepts h) {a start : Byte} {pairs : List (Byte × Byte)} (hl : pairs.length ≤ 510) {t : State}
    {x : Answer} (hr : orderLoadDrum (a :: start :: pairs.flatMap fun p => [p.1, p.2]) s = (t, x)) :
    exec (.loadDrum h (a :: start :: pairs.flatMap fun p => [p.1, p.2])) s = .next (t.owe (leadOf h 0x04) x) := by
  refine exec_answered rfl ha ?_ hr
  simp only [List.length_cons, length_flatMap_pairs]
  omega

theorem orderLoadDrum_badField {a start : Byte} {pairs : List (Byte × Byte)}
    (hb : entryOf 8 a = none ∨ readAll (fun p => drumEntryOf p.1 p.2) pairs = none) :
    orderLoadDrum (a :: start :: pairs.flatMap fun p => [p.1, p.2]) s = (s, .refused .badField) := by
  simp only [orderLoadDrum, elementPairs_flatMap]
  rcases hb with hb | hb
  · simp [hb]
  · cases entryOf 8 a <;> simp [hb]

/-- A LOAD DRUM whose fields are in range: the checks of the entry, then the run (R106). -/
theorem orderLoadDrum_fields {a start : Byte} {pairs : List (Byte × Byte)} {e : Fin 8} {els : List DrumEntry}
    (he : entryOf 8 a = some e) (hr : readAll (fun p => drumEntryOf p.1 p.2) pairs = some els) :
    orderLoadDrum (a :: start :: pairs.flatMap fun p => [p.1, p.2]) s =
      if start.toNat ≠ 0 ∧ s.library.drums[e].isNone then (s, .refused .emptyEntry)
      else if s.drumInUse e then (s, .refused .inUse)
      else
        ({ s with library := { s.library with drums := s.library.drums.set e (some
            (writeDrum (s.library.drums[e].getD (Vector.replicate 256 .absent)) start.toNat els)) } },
          { Answer.done with loadStuck := runSticks 255 start.toNat els.length }) := by
  simp only [orderLoadDrum, elementPairs_flatMap, he, hr]

/-- What a LOAD DRUM leaves at each index (R108). -/
theorem writeDrum_get (old : DrumTable) (start : Nat) (els : List DrumEntry) (i : Fin 256) (hs : start ≤ 255) :
    let before : DrumEntry := if start = 0 then .absent else old[i]
    (writeDrum old start els)[i] =
      if i.val < start then before
      else if i.val < 255 then (els[i.val - start]?).getD before
      else if start + els.length ≤ 255 then before
      else els.getLast?.getD before := by
  intro before
  have run := writeRun_get (τ := DrumTable) (put := fun t i e => t.setIfInBounds i e) (get := fun t k => t[k]?.getD .absent)
    (P := fun _ => True) (last := 255) (fun _ _ _ _ => trivial)
    (fun t j e k _ hj hk => by
      rw [Vector.getElem?_setIfInBounds]
      split
      · rw [if_pos (by omega)]
        rfl
      · rfl)
    els (if start = 0 then Vector.replicate 256 .absent else old) start i.val trivial (by omega)
  have hbefore : (if start = 0 then Vector.replicate 256 DrumEntry.absent else old)[i.val]?.getD .absent = before := by
    split
    · simp [before, *]
    · simp [before, *]
  have hget : (writeDrum old start els)[i] = (writeDrum old start els)[i.val]?.getD .absent := by simp
  rw [hget, writeDrum, run, hbefore]
  by_cases h255 : i.val < 255
  · by_cases hi : start ≤ i.val
    · rw [if_pos h255, if_pos hi, if_neg (Nat.not_lt.mpr hi), if_pos h255]
    · rw [if_pos h255, if_neg hi, if_pos (Nat.not_le.mp hi)]
  · rw [if_neg h255, if_neg h255]
    have hi : ¬ i.val < start := by omega
    rw [if_neg hi]

/-- Settles O31: the checks of the fields, then of the entry, then the run. -/
theorem loadDrumWritesItsRun : Obligations.LoadDrumWritesItsRun := by
  refine ⟨fun g => ⟨rfl, rfl, rfl⟩, fun g hg => ?codes, fun k g hb => drumEntryOf_eq_none.mpr hb, ?refused, ?written⟩
  case codes =>
    have hcode := codeOf_val hg
    simp [drumEntryOf, hcode]
  case refused =>
    intro s h a start pairs ha hl go refusedWith bad
    refine ⟨fun hb => exec_loadDrum ha hl (orderLoadDrum_badField (hb.imp entryOf_eq_none fun hp => ?_)), ?_⟩
    · obtain ⟨p, hp, hbad⟩ := hp
      exact readAll_eq_none.mpr ⟨p, hp, drumEntryOf_eq_none.mpr hbad⟩
    · intro e he hgood
      obtain ⟨els, hels⟩ := readAll_isSome (f := fun p : Byte × Byte => drumEntryOf p.1 p.2) (l := pairs)
        fun p hp hn => hgood p hp (drumEntryOf_eq_none.mp hn)
      have fields := orderLoadDrum_fields (s := s) (start := start) (he ▸ entryOf_byteOf (by decide) e) hels
      have hzero : start.toNat ≠ 0 ↔ start ≠ 0 := not_congr (BitVec.toNat_inj (y := 0))
      refine ⟨fun hs hempty => exec_loadDrum ha hl (fields.trans (if_pos ?_)),
        fun hs hu => exec_loadDrum ha hl (fields.trans ?_), s.drumInUse_iff e⟩
      · exact ⟨hzero.mpr hs, by rw [hempty]; rfl⟩
      · rw [if_neg, if_pos hu]
        rintro ⟨hn, hnone⟩
        rcases hs with hs | hs
        · exact hzero.mp hn hs
        · simp [Option.isNone_iff_eq_none.mp hnone] at hs
  case written =>
    intro s h e start pairs els ha hl hels hu hvalid
    have fields := orderLoadDrum_fields (s := s) (start := start) (entryOf_byteOf (by decide) e) (readAll_eq_some.mpr hels)
    rw [if_neg, if_neg (by simp [hu])] at fields
    · refine ⟨_, exec_loadDrum ha hl fields, fun i => ?_⟩
      rw [writeDrum_get _ _ _ _ (by omega)]
      simp only [← BitVec.toNat_inj]
      rfl
    · rintro ⟨hn, hnone⟩
      have := hvalid fun h0 => hn (congrArg BitVec.toNat h0)
      simp [Option.isNone_iff_eq_none.mp hnone] at this

/-! ## LOAD TAPE (R109, R110) -/

theorem toNat_byteOf {n : Nat} (hn : n < 256) : (byteOf n).toNat = n := by
  rw [byteOf, BitVec.toNat_ofNat]
  omega

theorem be16_toNat (hi lo : Byte) : (be16 hi lo).toNat = hi.toNat * 256 + lo.toNat := by
  have := lo.isLt
  simp only [be16, BitVec.toNat_append]
  rw [← Nat.shiftLeft_add_eq_or_of_lt this, Nat.shiftLeft_eq]

/-- Bits 12 to 15 of a stop set's two bytes are the upper half of the first (R180). -/
theorem stopSetOf_eq_none {hi lo : Byte} : stopSetOf hi lo = none ↔ 16 ≤ hi.toNat := by
  have hbits : (be16 hi lo).extractLsb' 12 4 = 0 ↔ hi.toNat < 16 := by
    have := hi.isLt
    have := lo.isLt
    rw [← BitVec.toNat_inj, BitVec.extractLsb'_toNat, be16_toNat, Nat.shiftRight_eq_div_pow]
    change _ = 0 ↔ _
    omega
  unfold stopSetOf
  dsimp only
  split
  · rename_i h
    simpa using hbits.mp h
  · rename_i h
    simpa using fun hlt => h (hbits.mpr hlt)

/-- A stop set written as two bytes reads back. -/
theorem stopSetOf_twoBytes (x : StopSet) :
    stopSetOf (BitVec.ofNat 8 (x.toNat / 256)) (BitVec.ofNat 8 x.toNat) = some x := by
  have hx := x.isLt
  have hval : (be16 (BitVec.ofNat 8 (x.toNat / 256)) (BitVec.ofNat 8 x.toNat)).toNat = x.toNat := by
    rw [be16_toNat, BitVec.toNat_ofNat, BitVec.toNat_ofNat]
    omega
  unfold stopSetOf
  dsimp only
  rw [if_pos, Option.some.injEq]
  · apply BitVec.eq_of_toNat_eq
    rw [BitVec.extractLsb'_toNat, hval, Nat.shiftRight_zero]
    omega
  · apply BitVec.eq_of_toNat_eq
    rw [BitVec.extractLsb'_toNat, hval, Nat.shiftRight_eq_div_pow]
    change _ = 0
    omega

/-- Stop sets as two-byte elements. -/
theorem flatMap_twoBytes (sets : List StopSet) : (sets.flatMap fun x => twoBytes x.toNat) =
    (sets.map fun x => ((BitVec.ofNat 8 (x.toNat / 256) : Byte), (BitVec.ofNat 8 x.toNat : Byte))).flatMap
      fun p => [p.1, p.2] := by
  simp only [List.flatMap_map, twoBytes]

theorem readAll_twoBytes (sets : List StopSet) : readAll (fun p : Byte × Byte => stopSetOf p.1 p.2)
    (sets.map fun x => ((BitVec.ofNat 8 (x.toNat / 256) : Byte), (BitVec.ofNat 8 x.toNat : Byte))) = some sets := by
  rw [readAll_eq_some, List.map_map]
  exact List.map_congr_left fun x _ => stopSetOf_twoBytes x

theorem pitchOf_eq_none {p : Byte} (h : p ≠ 0x06 ∧ p ≠ 0x08) : pitchOf p = none := by
  rw [pitchOf, if_neg h.1, if_neg h.2]

theorem pitchOf_eq_some {p : Byte} (h : ¬ (p ≠ 0x06 ∧ p ≠ 0x08)) :
    pitchOf p = some (if p = 0x06 then .six else .eight) := by
  unfold pitchOf
  split
  · rfl
  · rw [if_pos (by tauto)]

/-- An accepted LOAD TAPE is answered as `orderLoadTape` says. -/
theorem exec_loadTape (ha : s.accepts h) {a f p ov start : Byte} {pairs : List (Byte × Byte)} (hl : pairs.length ≤ 509)
    {t : State} {x : Answer} (hr : orderLoadTape (a :: f :: p :: ov :: start :: pairs.flatMap fun p => [p.1, p.2]) s = (t, x)) :
    exec (.loadTape h (a :: f :: p :: ov :: start :: pairs.flatMap fun p => [p.1, p.2])) s =
      .next (t.owe (leadOf h 0x05) x) := by
  refine exec_answered rfl ha ?_ hr
  simp only [List.length_cons, length_flatMap_pairs]
  omega

/-- The numbers of a LOAD TAPE lie in their ranges (R109). -/
def tapeRange (f ov start : Nat) : Prop := 2 ≤ f ∧ f ≤ 192 ∧ 1 ≤ ov ∧ ov ≤ 12 ∧ 1 ≤ start ∧ start ≤ f

/-- A field or stop set out of range is found first (R106). -/
theorem orderLoadTape_badField {a f p ov start : Byte} {pairs : List (Byte × Byte)}
    (hb : entryOf 8 a = none ∨ pitchOf p = none ∨ readAll (fun p => stopSetOf p.1 p.2) pairs = none ∨
      ¬ tapeRange f.toNat ov.toNat start.toNat) :
    orderLoadTape (a :: f :: p :: ov :: start :: pairs.flatMap fun p => [p.1, p.2]) s = (s, .refused .badField) := by
  simp only [orderLoadTape, elementPairs_flatMap]
  split
  · refine if_pos ?_
    rcases hb with hb | hb | hb | hb
    · simp_all
    · simp_all
    · simp_all
    · unfold tapeRange at hb
      omega
  · rfl

/-- The state after stop sets have been written into tape entry `e` (R110). -/
def State.withStops (s : State) (e : Fin 8) (f : Nat) (pitch : Pitch) (ov start : Nat) (sets : List StopSet) : State :=
  { s with library := { s.library with tapes := s.library.tapes.set e (some
      ⟨f, pitch, ov, writeStops ((s.library.tapes[e].map Tape.stops).getD []) f start sets⟩) } }

section
variable {a f p ov start : Byte} {pairs : List (Byte × Byte)} {e : Fin 8} {pitch : Pitch} {sets : List StopSet}

/-- A LOAD TAPE whose fields are in range: the checks of the entry, then the run (R106). -/
theorem orderLoadTape_fields (he : entryOf 8 a = some e) (hp : pitchOf p = some pitch)
    (hr : readAll (fun p => stopSetOf p.1 p.2) pairs = some sets) (hrange : tapeRange f.toNat ov.toNat start.toNat) :
    orderLoadTape (a :: f :: p :: ov :: start :: pairs.flatMap fun p => [p.1, p.2]) s =
      if start.toNat ≠ 1 ∧ s.library.tapes[e].isNone then (s, .refused .emptyEntry)
      else if start.toNat ≠ 1 ∧ !(s.library.tapes[e].any fun t => t.sameForm f.toNat pitch ov.toNat) then
        (s, .refused .badField)
      else if s.tapeInUse e then (s, .refused .inUse)
      else (s.withStops e f.toNat pitch ov.toNat start.toNat sets,
        { Answer.done with loadStuck := runSticks f.toNat start.toNat sets.length }) := by
  simp only [orderLoadTape, elementPairs_flatMap, he, hp, hr, State.withStops]
  rw [if_neg]
  · cases s.library.tapes[e] <;> rfl
  · unfold tapeRange at hrange
    omega

theorem Tape.sameForm_iff {t : Tape} {f ov : Nat} {pitch : Pitch} :
    t.sameForm f pitch ov = true ↔ t.formLength = f ∧ t.pitch = pitch ∧ t.overflow = ov := by
  simp [Tape.sameForm, and_assoc]

theorem orderLoadTape_emptyEntry (he : entryOf 8 a = some e) (hp : pitchOf p = some pitch)
    (hr : readAll (fun p => stopSetOf p.1 p.2) pairs = some sets) (hrange : tapeRange f.toNat ov.toNat start.toNat)
    (hs : start.toNat ≠ 1) (ht : s.library.tapes[e] = none) :
    orderLoadTape (a :: f :: p :: ov :: start :: pairs.flatMap fun p => [p.1, p.2]) s = (s, .refused .emptyEntry) := by
  rw [orderLoadTape_fields he hp hr hrange, if_pos ⟨hs, by rw [ht]; rfl⟩]

theorem orderLoadTape_otherForm (he : entryOf 8 a = some e) (hp : pitchOf p = some pitch)
    (hr : readAll (fun p => stopSetOf p.1 p.2) pairs = some sets) (hrange : tapeRange f.toNat ov.toNat start.toNat)
    (hs : start.toNat ≠ 1) {t : Tape} (ht : s.library.tapes[e] = some t) (hform : ¬ t.sameForm f.toNat pitch ov.toNat = true) :
    orderLoadTape (a :: f :: p :: ov :: start :: pairs.flatMap fun p => [p.1, p.2]) s = (s, .refused .badField) := by
  rw [orderLoadTape_fields he hp hr hrange, ht, if_neg (by simp), if_pos ⟨hs, by simpa using hform⟩]

/-- A whole load, or an amending one of an entry of the same form, comes to the in-use test. -/
theorem orderLoadTape_taken (he : entryOf 8 a = some e) (hp : pitchOf p = some pitch)
    (hr : readAll (fun p => stopSetOf p.1 p.2) pairs = some sets) (hrange : tapeRange f.toNat ov.toNat start.toNat)
    (hform : start.toNat ≠ 1 → ∃ t, s.library.tapes[e] = some t ∧ t.sameForm f.toNat pitch ov.toNat = true) :
    orderLoadTape (a :: f :: p :: ov :: start :: pairs.flatMap fun p => [p.1, p.2]) s =
      if s.tapeInUse e then (s, .refused .inUse)
      else (s.withStops e f.toNat pitch ov.toNat start.toNat sets,
        { Answer.done with loadStuck := runSticks f.toNat start.toNat sets.length }) := by
  rw [orderLoadTape_fields he hp hr hrange]
  by_cases hs : start.toNat = 1
  · rw [if_neg (fun h => h.1 hs), if_neg (fun h => h.1 hs)]
  · obtain ⟨t, ht, hsame⟩ := hform hs
    rw [ht, if_neg (by simp), if_neg (by simp [hsame])]

end

/-- What it is for the fields of a LOAD TAPE to be out of range, byte by byte (R109, R180). -/
theorem badTape_iff {f p ov start : Byte} {pairs : List (Byte × Byte)} :
    (f.toNat < 2 ∨ 192 < f.toNat ∨ p ≠ 0x06 ∧ p ≠ 0x08 ∨ ov = 0 ∨ 12 < ov.toNat ∨ start = 0 ∨
      f.toNat < start.toNat ∨ ∃ x ∈ pairs, 16 ≤ x.1.toNat) ↔
    (p ≠ 0x06 ∧ p ≠ 0x08) ∨ readAll (fun p : Byte × Byte => stopSetOf p.1 p.2) pairs = none ∨
      ¬ tapeRange f.toNat ov.toNat start.toNat := by
  have hov : ov = 0 ↔ ov.toNat = 0 := BitVec.toNat_inj.symm
  have hzero : start = 0 ↔ start.toNat = 0 := BitVec.toNat_inj.symm
  simp only [readAll_eq_none, stopSetOf_eq_none, tapeRange, hov, hzero]
  generalize (p ≠ 0x06 ∧ p ≠ 0x08) = badPitch
  generalize (∃ x ∈ pairs, 16 ≤ x.1.toNat) = badSet
  by_cases hp : badPitch
  · exact iff_of_true (.inr (.inr (.inl hp))) (.inl hp)
  · by_cases hb : badSet
    · simp [hb]
    · simp only [hp, hb, false_or, or_false]
      omega

/-- What a LOAD TAPE leaves at each line (R110). -/
theorem writeStops_get {old : List StopSet} {f start : Nat} (sets : List StopSet) {n : Nat} (hs : 1 ≤ start) (hsf : start ≤ f)
    (h1 : 1 ≤ n) (hf : n ≤ f) (hlen : start ≠ 1 → old.length = f) :
    let before : StopSet := if start = 1 then 0 else old.getD (n - 1) 0
    (writeStops old f start sets).getD (n - 1) 0 =
      if n < start then before
      else if n < f then (sets[n - start]?).getD before
      else if start + sets.length ≤ f then before
      else sets.getLast?.getD before := by
  intro before
  have run := writeRun_get (τ := List StopSet) (put := fun t i e => t.set i e) (get := fun t k => t.getD k 0)
    (P := fun t => t.length = f) (last := f - 1) (fun t i e ht => by simpa using ht)
    (fun t j e k ht hj hk => by
      simp only [List.getD_eq_getElem?_getD, List.getElem?_set]
      split
      · rw [if_pos (by omega)]
        rfl
      · rfl)
    sets (if start = 1 then List.replicate f 0 else old) (start - 1) (n - 1)
    (by
      split
      · exact List.length_replicate
      · exact hlen ‹_›)
    (by omega)
  have hbefore : (if start = 1 then List.replicate f (0 : StopSet) else old).getD (n - 1) 0 = before := by
    split
    · simp [before, *]
    · simp [before, *]
  rw [writeStops, run, hbefore]
  by_cases hlast : n < f
  · have hlast' : n - 1 < f - 1 := by omega
    by_cases hi : n < start
    · rw [if_pos hlast', if_neg (by omega), if_pos hi]
    · rw [if_pos hlast', if_pos (by omega), if_neg hi, if_pos hlast, show n - 1 - (start - 1) = n - start by omega]
  · have hlast' : ¬ n - 1 < f - 1 := by omega
    have hi : ¬ n < start := by omega
    rw [if_neg hlast', if_neg hi, if_neg hlast]
    exact if_congr (by omega) rfl rfl

/-- Settles O32: the checks of the fields, then of the entry, then the run. -/
theorem loadTapeWritesItsRun : Obligations.LoadTapeWritesItsRun := by
  refine ⟨?refused, ?written⟩
  case refused =>
    intro s h a f p ov start pairs ha hl go refusedWith bad pitch
    have hone : start = 1 ↔ start.toNat = 1 := BitVec.toNat_inj.symm
    refine ⟨fun hb => exec_loadTape ha hl (orderLoadTape_badField ?_), ?_⟩
    · rcases hb with hb | hb
      · exact .inl (entryOf_eq_none hb)
      · exact .inr ((badTape_iff.mp hb).imp_left pitchOf_eq_none)
    · intro e he hgood
      simp only [bad, badTape_iff, not_or, not_not] at hgood
      obtain ⟨hp, hread, hrange⟩ := hgood
      obtain ⟨sets, hr⟩ := Option.ne_none_iff_exists'.mp hread
      have hentry : entryOf 8 a = some e := he ▸ entryOf_byteOf (by decide) e
      have hpitch := pitchOf_eq_some hp
      refine ⟨fun hs ht => ?empty, fun t hs ht hform => ?other, fun hsame hu => ?inUse, s.tapeInUse_iff e⟩
      case empty => exact exec_loadTape ha hl (orderLoadTape_emptyEntry hentry hpitch hr hrange (mt hone.mpr hs) ht)
      case other =>
        refine exec_loadTape ha hl (orderLoadTape_otherForm hentry hpitch hr hrange (mt hone.mpr hs) ht ?_)
        rw [Tape.sameForm_iff]
        tauto
      case inUse =>
        refine exec_loadTape ha hl ((orderLoadTape_taken hentry hpitch hr hrange fun hs => ?_).trans (if_pos hu))
        obtain ⟨t, ht, hform⟩ := hsame.resolve_left (mt hone.mp hs)
        exact ⟨t, ht, Tape.sameForm_iff.mpr hform⟩
  case written =>
    intro s h e f ov start pitch sets ha hl hf2 hf hov1 hov hs1 hsf hu hamend pitchByte
    have hfb : (byteOf f).toNat = f := toNat_byteOf (by omega)
    have hovb : (byteOf ov).toNat = ov := toNat_byteOf (by omega)
    have hsb : (byteOf start).toNat = start := toNat_byteOf (by omega)
    have hpitch : pitchOf pitchByte = some pitch := by cases pitch <;> rfl
    have taken := orderLoadTape_taken (s := s) (f := byteOf f) (ov := byteOf ov) (start := byteOf start)
      (entryOf_byteOf (by decide) e) hpitch (readAll_twoBytes sets)
    rw [hfb, hovb, hsb, if_neg (by simp [hu])] at taken
    have answer := taken ⟨hf2, hf, hov1, hov, hs1, hsf⟩ fun hs => by
      obtain ⟨t, ht, hform, hp, ho, -⟩ := hamend hs
      exact ⟨t, ht, Tape.sameForm_iff.mpr ⟨hform, hp, ho⟩⟩
    have hold : start ≠ 1 → ((s.library.tapes[e].map Tape.stops).getD []).length = f := fun hs => by
      obtain ⟨t, ht, -, -, -, hlen⟩ := hamend hs
      simp [ht, hlen]
    exact ⟨_, flatMap_twoBytes sets ▸ exec_loadTape ha (by simpa using hl) answer, rfl, rfl, rfl,
      writeStops_length _ _ _ _ hold, fun n h1 hn => writeStops_get sets hs1 hsf h1 hn hold⟩

end Sys2Proof.Machine
end

section
/-! SUPPORT. The loads that replace a whole table (R69, R70, R111 to R113, R180): when a layout is taken, its windows by their
bytes, and the effect of LOAD LAYOUT, LOAD COLLATION and LOAD CONDITIONS. -/

namespace Sys2Proof.Machine

variable {s : State} {h : Head}

/-! ## Layouts that are taken (R69, R70) -/

theorem pairwise_iff_getElem? {α : Type} {r : α → α → Prop} {l : List α} :
    l.Pairwise r ↔ ∀ (i j : Nat) (a b : α), i < j → l[i]? = some a → l[j]? = some b → r a b := by
  rw [List.pairwise_iff_getElem]
  constructor
  · intro hr i j a b hij ha hb
    obtain ⟨hi, rfl⟩ := List.getElem?_eq_some_iff.mp ha
    obtain ⟨hj, rfl⟩ := List.getElem?_eq_some_iff.mp hb
    exact hr i j hi hj hij
  · intro hr i j hi hj hij
    exact hr i j _ _ hij (List.getElem?_eq_getElem hi) (List.getElem?_eq_getElem hj)

theorem Window.inRange_iff (w : Window) : w.inRange = true ↔
    1 ≤ w.start ∧ w.start ≤ 132 ∧ 1 ≤ w.width ∧ w.width ≤ 132 ∧ w.start + w.width - 1 ≤ 132 ∧ w.outX ≤ 24000 ∧
      w.keyOffset ≤ w.width - 1 ∧ 1 ≤ w.keyLength ∧ w.keyLength ≤ 24 ∧ w.keyOffset + w.keyLength ≤ w.width := by
  simp only [Window.inRange, Bool.and_eq_true, decide_eq_true_eq, and_assoc]

/-- Source ranges that are not empty lie apart when no position lies in both. -/
theorem Window.sourcesApart_iff {a b : Window} (ha : 1 ≤ a.width) (hb : 1 ≤ b.width) : a.sourcesApart b = true ↔
    ∀ n, ¬ (a.start ≤ n ∧ n < a.start + a.width ∧ b.start ≤ n ∧ n < b.start + b.width) := by
  simp only [Window.sourcesApart, Bool.or_eq_true, decide_eq_true_eq]
  constructor
  · intro hapart n hn
    omega
  · intro hnone
    have := hnone (max a.start b.start)
    omega

theorem Layout.spansApart_iff (l : Layout) (a b : Window) :
    l.spansApart a b = true ↔ ¬ (a.outX < l.spanEnd b ∧ b.outX < l.spanEnd a) := by
  simp only [Layout.spansApart, Bool.or_eq_true, decide_eq_true_eq]
  omega

theorem Layout.valid_iff (l : Layout) : l.valid = true ↔
    (1 ≤ l.width ∧ l.width ≤ 24000 ∧ 1 ≤ l.depth ∧ l.depth ≤ 30000 ∧ l.topMargin ≤ 30000 ∧ 40 ≤ l.reduction ∧
      l.reduction ≤ 100 ∧ l.guideRow ≤ l.depth ∧ l.leftGuide ≤ 24000 ∧ l.rightGuide ≤ 24000 ∧
      1 ≤ l.windows.length ∧ l.windows.length ≤ 6) ∧
    (∀ w ∈ l.windows, w.inRange = true) ∧
    ∀ (i j : Nat) (a b : Window), i < j → l.windows[i]? = some a → l.windows[j]? = some b →
      a.sourcesApart b = true ∧ l.spansApart a b = true := by
  simp only [← pairwise_iff_getElem?, List.pairwise_and_iff, ← pairwiseB_iff, Layout.valid, Bool.and_eq_true,
    decide_eq_true_eq, List.all_eq_true, and_assoc]

/-! ## Windows by their bytes (R180) -/

theorem readAll_map {α β γ : Type} (f : β → Option γ) (g : α → β) (l : List α) :
    readAll f (l.map g) = readAll (fun a => f (g a)) l := by
  induction l with
  | nil => rfl
  | cons a l ih => simp only [List.map_cons, readAll, ih]

/-- Window `w` of the windows part of a LOAD LAYOUT. -/
def windowOfAt (rest : List Byte) (w : Nat) : Option Window :=
  windowOf (byteAt rest (7 * w)) (byteAt rest (7 * w + 1)) (byteAt rest (7 * w + 2)) (byteAt rest (7 * w + 3))
    (byteAt rest (7 * w + 4)) (byteAt rest (7 * w + 5)) (byteAt rest (7 * w + 6))

theorem windowsOf_eq_readAll {c : Nat} {rest : List Byte} (hl : rest.length = 7 * c) :
    windowsOf rest = readAll (windowOfAt rest) (List.range c) := by
  induction c generalizing rest with
  | zero =>
    rw [List.length_eq_zero_iff.mp hl]
    rfl
  | succ c ih =>
    match rest, hl with
    | s :: w :: xh :: xl :: ko :: kl :: f :: tail, hl =>
      have htail : tail.length = 7 * c := by
        simp only [List.length_cons] at hl
        omega
      have hshift : (fun k => windowOfAt (s :: w :: xh :: xl :: ko :: kl :: f :: tail) (k + 1)) = windowOfAt tail := by
        funext k
        rfl
      rw [windowsOf, ih htail, List.range_succ_eq_map, readAll, readAll_map, hshift]
      rfl

/-- A window's flag byte has CHECK and GUIDE alone (R180, R181). -/
theorem windowFlags_iff {f : Byte} : f.extractLsb' 2 6 = 0 ↔ f.toNat ≤ 3 := by
  have := f.isLt
  rw [← BitVec.toNat_inj, BitVec.extractLsb'_toNat, Nat.shiftRight_eq_div_pow]
  change _ = 0 ↔ _
  omega

theorem windowOfAt_eq_some {rest : List Byte} {w : Nat} (hf : (byteAt rest (7 * w + 6)).toNat ≤ 3) :
    windowOfAt rest w = some
      { start := (byteAt rest (7 * w)).toNat, width := (byteAt rest (7 * w + 1)).toNat
        outX := (halfAt rest (7 * w + 2)).toNat, keyOffset := (byteAt rest (7 * w + 4)).toNat
        keyLength := (byteAt rest (7 * w + 5)).toNat, check := (byteAt rest (7 * w + 6)).getLsbD 0
        guide := (byteAt rest (7 * w + 6)).getLsbD 1 } :=
  if_pos (windowFlags_iff.mpr hf)

theorem windowsOf_eq_none {c : Nat} {rest : List Byte} (hl : rest.length = 7 * c)
    (hf : ∃ w < c, 4 ≤ (byteAt rest (7 * w + 6)).toNat) : windowsOf rest = none := by
  obtain ⟨w, hw, hf⟩ := hf
  rw [windowsOf_eq_readAll hl, readAll_eq_none]
  refine ⟨w, List.mem_range.mpr hw, if_neg ?_⟩
  rw [windowFlags_iff]
  omega

/-! ## LOAD LAYOUT (R111) -/

section
variable {a w1 w0 d1 d0 t1 t0 r y1 y0 l1 l0 r1 r0 c f : Byte} {rest : List Byte}

/-- The layout that the fields of a LOAD LAYOUT write. -/
def layoutOf (w1 w0 d1 d0 t1 t0 r y1 y0 l1 l0 r1 r0 f : Byte) (windows : List Window) : Layout :=
  ⟨(be16 w1 w0).toNat, (be16 d1 d0).toNat, (be16 t1 t0).toNat, r.toNat, (be16 y1 y0).toNat, (be16 l1 l0).toNat,
    (be16 r1 r0).toNat, f.getLsbD 0, windows⟩

/-- An accepted LOAD LAYOUT is answered as `orderLoadLayout` says. -/
theorem exec_loadLayout (ha : s.accepts h) (hc : c.toNat ≤ 6) (hl : rest.length = 7 * c.toNat) {t : State} {x : Answer}
    (hr : orderLoadLayout (a :: w1 :: w0 :: d1 :: d0 :: t1 :: t0 :: r :: y1 :: y0 :: l1 :: l0 :: r1 :: r0 :: c :: f :: rest) s =
      (t, x)) :
    exec (.loadLayout h (a :: w1 :: w0 :: d1 :: d0 :: t1 :: t0 :: r :: y1 :: y0 :: l1 :: l0 :: r1 :: r0 :: c :: f :: rest)) s =
      .next (t.owe (leadOf h 0x06) x) := by
  refine exec_answered rfl ha ?_ hr
  simp only [List.length_cons]
  omega

theorem orderLoadLayout_badField (hc1 : 1 ≤ c.toNat) (hc : c.toNat ≤ 6) (hl : rest.length = 7 * c.toNat)
    (hb : entryOf 8 a = none ∨ windowsOf rest = none ∨ f.extractLsb' 1 7 ≠ 0) :
    orderLoadLayout (a :: w1 :: w0 :: d1 :: d0 :: t1 :: t0 :: r :: y1 :: y0 :: l1 :: l0 :: r1 :: r0 :: c :: f :: rest) s =
      (s, .refused .badField) := by
  unfold orderLoadLayout
  dsimp only
  rw [if_neg (by omega)]
  split
  · refine if_pos (.inl ?_)
    simp_all
  · rfl

/-- A LOAD LAYOUT whose entry, flags and windows read: R69 and R70, then the in-use test (R106). -/
theorem orderLoadLayout_fields {e : Fin 8} {windows : List Window} (hc1 : 1 ≤ c.toNat) (hc : c.toNat ≤ 6)
    (hl : rest.length = 7 * c.toNat) (he : entryOf 8 a = some e) (hw : windowsOf rest = some windows)
    (hf : f.extractLsb' 1 7 = 0) :
    orderLoadLayout (a :: w1 :: w0 :: d1 :: d0 :: t1 :: t0 :: r :: y1 :: y0 :: l1 :: l0 :: r1 :: r0 :: c :: f :: rest) s =
      if (layoutOf w1 w0 d1 d0 t1 t0 r y1 y0 l1 l0 r1 r0 f windows).valid = false then (s, .refused .badField)
      else if s.layoutInUse e then (s, .refused .inUse)
      else ({ s with library := { s.library with
        layouts := s.library.layouts.set e (some (layoutOf w1 w0 d1 d0 t1 t0 r y1 y0 l1 l0 r1 r0 f windows)) } }, .done) := by
  unfold orderLoadLayout
  dsimp only
  rw [if_neg (by omega), he, hw]
  exact if_congr (by simp [hf, layoutOf]) rfl rfl

end

/-! ## LOAD COLLATION (R112) -/

/-- An accepted LOAD COLLATION is answered as `orderLoadCollation` says. -/
theorem exec_loadCollation (ha : s.accepts h) {a : Byte} {weights : List Byte} (hl : weights.length = 251) {t : State}
    {x : Answer} (hr : orderLoadCollation (a :: weights) s = (t, x)) :
    exec (.loadCollation h (a :: weights)) s = .next (t.owe (leadOf h 0x07) x) :=
  exec_answered rfl ha (by simp [hl]) hr

theorem orderLoadCollation_entry {a : Byte} {e : Fin 4} {weights : List Byte} (hl : weights.length = 251)
    (he : entryOf 4 a = some e) : orderLoadCollation (a :: weights) s =
      if s.collInUse e then (s, .refused .inUse)
      else ({ s with library := { s.library with colls := s.library.colls.set e (some (collTableOf weights)) } }, .done) := by
  simp [orderLoadCollation, hl, he]

theorem orderLoadCollation_badField {a : Byte} {weights : List Byte} (hl : weights.length = 251) (he : entryOf 4 a = none) :
    orderLoadCollation (a :: weights) s = (s, .refused .badField) := by
  simp [orderLoadCollation, hl, he]

theorem collTableOf_get {weights : List Byte} (hl : weights.length = 251) (g : Fin 251) :
    weights[g.val]? = some (collTableOf weights)[g] := by
  have hg : g.val < weights.length := by omega
  simp [collTableOf, hg]

/-! ## LOAD CONDITIONS (R113) -/

/-- The code of a disposition (R180). -/
def Disposition.code : Disposition → Byte
  | .ignore => 0x00
  | .note => 0x01
  | .hold => 0x02
  | .stop => 0x03

theorem dispositionOf_eq_some {b : Byte} {d : Disposition} : dispositionOf b = some d ↔ b = d.code := by
  constructor
  · unfold dispositionOf
    split_ifs <;> rintro ⟨⟩ <;> assumption
  · rintro rfl
    cases d <;> rfl

theorem dispositionOf_eq_none {b : Byte} : dispositionOf b = none ↔ 4 ≤ b.toNat := by
  have hb : b.toNat < 4 ↔ b = 0x00 ∨ b = 0x01 ∨ b = 0x02 ∨ b = 0x03 := by
    simp only [← BitVec.toNat_inj]
    change _ ↔ _ = 0 ∨ _ = 1 ∨ _ = 2 ∨ _ = 3
    omega
  rw [← not_lt, hb]
  unfold dispositionOf
  split_ifs <;> simp_all

/-- An accepted LOAD CONDITIONS is answered as `orderLoadConditions` says. -/
theorem exec_loadConditions (ha : s.accepts h) {data : List Byte} (hl : data.length = 16) {t : State} {x : Answer}
    (hr : orderLoadConditions data s = (t, x)) : exec (.loadConditions h data) s = .next (t.owe (leadOf h 0x08) x) :=
  exec_answered rfl ha (by simp [hl]) hr

theorem dispositionsOf_get {data : List Byte} {ds : List Disposition} (hl : data.length = 16)
    (hr : readAll dispositionOf data = some ds) (k : Fin 16) : data[k.val]? = some (dispositionsOf ds)[k].code := by
  rw [readAll_eq_some] at hr
  have hlen : ds.length = 16 := by rw [← hl, ← List.length_map (f := dispositionOf), hr, List.length_map]
  have hk : k.val < data.length := by omega
  have hkd : k.val < ds.length := by omega
  have hget : dispositionOf data[k.val] = some ds[k.val] := by
    have := congrArg (·[k.val]?) hr
    simpa [hk, hkd] using this
  rw [List.getElem?_eq_getElem hk, dispositionOf_eq_some.mp hget]
  simp [dispositionsOf, hkd]

/-- Settles O33: each load by its checks in order. -/
theorem wholeLoadsReplace : Obligations.WholeLoadsReplace := by
  refine ⟨fun l => ?valid, fun c rest hl => ⟨fun hf => ?windows, windowsOf_eq_none hl⟩, ?layout, ?layoutBad, ?coll, ?collBad,
    ?conditionsBad, ?conditions⟩
  case valid =>
    intro spanEnd
    rw [l.valid_iff]
    refine and_congr_right fun _ => ?_
    simp only [Window.inRange_iff, Layout.spansApart_iff]
    refine and_congr_right fun hrange => forall₄_congr fun i j a b => forall₃_congr fun _ ha hb => and_congr_left' ?_
    obtain ⟨-, -, haw, -⟩ := hrange a (List.mem_of_getElem? ha)
    obtain ⟨-, -, hbw, -⟩ := hrange b (List.mem_of_getElem? hb)
    exact Window.sourcesApart_iff haw hbw
  case windows =>
    rw [windowsOf_eq_readAll hl, readAll_eq_some, List.map_map]
    exact List.map_congr_left fun w hw => windowOfAt_eq_some (hf w (List.mem_range.mp hw))
  case layout =>
    intro s h e w1 w0 d1 d0 t1 t0 r y1 y0 l1 l0 r1 r0 c f rest windows ha hc1 hc hl hw hf layout go
    have hflag : f.extractLsb' 1 7 = 0 := by rcases hf with rfl | rfl <;> decide
    have hlayout : layoutOf w1 w0 d1 d0 t1 t0 r y1 y0 l1 l0 r1 r0 f windows = layout := by
      rcases hf with rfl | rfl <;> rfl
    have fields := orderLoadLayout_fields (s := s) (w1 := w1) (w0 := w0) (d1 := d1) (d0 := d0) (t1 := t1) (t0 := t0) (r := r)
      (y1 := y1) (y0 := y0) (l1 := l1) (l0 := l0) (r1 := r1) (r0 := r0) hc1 hc hl (entryOf_byteOf (by decide) e) hw hflag
    rw [hlayout] at fields
    refine ⟨fun hv hu => exec_loadLayout ha hc hl (fields.trans ?_), fun hv => exec_loadLayout ha hc hl (fields.trans (if_pos hv)),
      fun hv hu => exec_loadLayout ha hc hl (fields.trans ?_), s.layoutInUse_iff e⟩
    · rw [if_neg (by simp [hv]), if_neg (by simp [hu])]
    · rw [if_neg (by simp [hv]), if_pos hu]
  case layoutBad =>
    intro s h a w1 w0 d1 d0 t1 t0 r y1 y0 l1 l0 r1 r0 c f rest ha hc1 hc hl hb
    refine exec_loadLayout ha hc hl (orderLoadLayout_badField hc1 hc hl ?_)
    rcases hb with hb | ⟨hf0, hf1⟩ | hb
    · exact .inl (entryOf_eq_none hb)
    · refine .inr (.inr fun hf => ?_)
      rw [extractLsb'_one_eq_zero] at hf
      rw [ne_eq, ← BitVec.toNat_inj] at hf0 hf1
      change ¬ _ = 0 at hf0
      change ¬ _ = 1 at hf1
      omega
    · exact .inr (.inl (windowsOf_eq_none hl hb))
  case coll =>
    intro s h e weights ha hl hu
    have entry := orderLoadCollation_entry (s := s) hl (entryOf_byteOf (by decide) e)
    rw [if_neg (by simp [hu])] at entry
    exact ⟨_, exec_loadCollation ha hl entry, collTableOf_get hl⟩
  case collBad =>
    intro s h a weights ha hl
    refine ⟨fun h4 => exec_loadCollation ha hl (orderLoadCollation_badField hl (entryOf_eq_none h4)), fun e he => ⟨fun hu => ?_,
      s.collInUse_iff e⟩⟩
    have entry := orderLoadCollation_entry (s := s) hl (he ▸ entryOf_byteOf (by decide) e)
    exact exec_loadCollation ha hl (entry.trans (if_pos hu))
  case conditionsBad =>
    intro s h data ha hl hb
    have hnone : readAll dispositionOf data = none := by
      simpa only [readAll_eq_none, dispositionOf_eq_none] using hb
    exact exec_loadConditions ha hl (by simp [orderLoadConditions, hl, hnone])
  case conditions =>
    intro s h data ha hl hb
    obtain ⟨ds, hds⟩ := readAll_isSome (f := dispositionOf) (l := data) fun b hmem hn => by
      have := hb b hmem
      rw [dispositionOf_eq_none] at hn
      omega
    refine ⟨dispositionsOf ds, exec_loadConditions ha hl (by simp [orderLoadConditions, hl, hds]), fun k => ?_⟩
    rw [dispositionsOf_get hl hds k]
    cases (dispositionsOf ds)[k] <;> rfl

end Sys2Proof.Machine
end

section
/-! SUPPORT. Raising a condition (R120 to R128): the whole station after it, for each disposition. -/

namespace Sys2Proof.Machine

variable {table : Dispositions} {e : CondEntry} {st : Station} {d : Disposition}

/-! ## Hold causes added -/

theorem Station.addHolds_of_ready (x : Holds) (hr : st.state = .ready) :
    st.addHolds x = { st with holds := x, state := .held, idle := .off } := if_pos hr

theorem Station.addHolds_of_not_ready (x : Holds) (hr : st.state ≠ .ready) :
    st.addHolds x = { st with holds := x } := if_neg hr

/-! ## Raising (R120) -/

/-- At a STOPPED station a raising only counts (R128). -/
theorem Station.raise_of_stopped (hs : st.state = .stopped) : st.raise table e = st.counted e.kind := if_pos hs

theorem Station.raise_of_not_stopped (hs : st.state ≠ .stopped) (hd : table[e.kind.number] = d) :
    st.raise table e = (st.counted e.kind).applyDisposition e d := by
  rw [← hd]
  exact if_neg hs

/-- IGNORE has no effect beyond the count, whatever the state of the station (R123). -/
theorem Station.raise_ignore (hd : table[e.kind.number] = .ignore) : st.raise table e = st.counted e.kind := by
  by_cases hs : st.state = .stopped
  · exact raise_of_stopped hs
  · exact raise_of_not_stopped hs hd

theorem Station.raise_note (hs : st.state ≠ .stopped) (hd : table[e.kind.number] = .note) :
    st.raise table e = (st.counted e.kind).noteEntry e :=
  raise_of_not_stopped hs hd

theorem Station.raise_stop (hs : st.state ≠ .stopped) (hd : table[e.kind.number] = .stop) :
    st.raise table e = ((st.counted e.kind).noteEntry e).stopWith .conditionStop :=
  raise_of_not_stopped hs hd

/-- Under HOLD with the CONDITION cause present already, the station stops (R126). -/
theorem Station.raise_hold_again (hs : st.state ≠ .stopped) (hd : table[e.kind.number] = .hold)
    (hc : st.holds.condition = true) :
    st.raise table e = ((st.counted e.kind).noteEntry e).stopWith .secondCondition :=
  (raise_of_not_stopped hs hd).trans (if_pos hc)

/-- Under HOLD without the CONDITION cause, the cause is added (R125). -/
theorem Station.raise_hold_first (hs : st.state ≠ .stopped) (hd : table[e.kind.number] = .hold)
    (hc : st.holds.condition = false) :
    st.raise table e = ((st.counted e.kind).noteEntry e).addHolds { st.holds with condition := true } :=
  (raise_of_not_stopped hs hd).trans (if_neg (Bool.eq_false_iff.mp hc))

/-- Settles O40, by the rule for each disposition. -/
theorem raisingFollowsDisposition : Obligations.RaisingFollowsDisposition := by
  intro table e st k counts counted noted stopped
  refine ⟨fun h => ?counted, fun hs hd => Station.raise_note hs hd, fun hs hd => Station.raise_stop hs hd,
    fun hs hd hc => Station.raise_hold_again hs hd hc, fun hr hd hc => ?ready, fun hr hs hd hc => ?notReady⟩
  case counted =>
    obtain hs | hd := h
    · exact Station.raise_of_stopped hs
    · exact Station.raise_ignore hd
  case ready =>
    have hs : st.state ≠ .stopped := by simp [hr]
    exact (Station.raise_hold_first hs hd hc).trans (Station.addHolds_of_ready _ hr)
  case notReady =>
    exact (Station.raise_hold_first hs hd hc).trans (Station.addHolds_of_not_ready _ hr)

end Sys2Proof.Machine
end

section
/-! SUPPORT. The slots of a station (R134, R135): what each operation on a station leaves of its open page and its queue, and
how many slots the work of a line takes (R64, R80, R136). -/

namespace Sys2Proof.Machine

variable {t : Tools} {w : Work} {st : Station}

/-! ## The slots of a station -/

/-- The pages a station owns: the open one, and the queue of closed ones. -/
def Station.slots (st : Station) : Option Page × List Page := (st.openPage, st.queue)

theorem Station.holdings_congr {a b : Station} (h : b.slots = a.slots) : b.holdings = a.holdings := by
  obtain ⟨hopen, hqueue⟩ := Prod.mk.inj h
  rw [Station.holdings, Station.holdings, hopen, hqueue]

@[simp] theorem Station.raise_slots (table : Dispositions) (e : CondEntry) (st : Station) :
    (st.raise table e).slots = st.slots := by
  simp [Station.slots]

@[simp] theorem Station.addHolds_slots (h : Holds) (st : Station) : (st.addHolds h).slots = st.slots := by
  rcases st.addHolds_cases h with ⟨he, -⟩ | ⟨he, -⟩ <;> rw [he] <;> rfl

@[simp] theorem Station.removeHolds_slots (h : Holds) (st : Station) : (st.removeHolds h).slots = st.slots := by
  rcases st.removeHolds_cases h with ⟨he, -⟩ | ⟨he, -⟩ <;> rw [he]
  · rw [Station.refreshIdle_eq]
    rfl
  · rfl

@[simp] theorem Station.panel_slots (on : Bool) (st : Station) : (st.panel on).slots = st.slots := by
  cases on with
  | true => exact Station.addHolds_slots _ st
  | false => exact Station.removeHolds_slots _ st

@[simp] theorem Station.release_slots (st : Station) : st.release.slots = st.slots :=
  Station.removeHolds_slots _ _

@[simp] theorem Station.drainTest_slots (st : Station) : st.drainTest.slots = st.slots := by
  rcases st.drainTest_cases with he | ⟨-, -, he⟩ <;> rw [he]
  rfl

@[simp] theorem Station.finishJob_slots (st : Station) : st.finishJob.slots = st.slots := by
  rcases st.finishJob_cases with ⟨-, he⟩ | ⟨-, -, he⟩ | ⟨-, -, he⟩ <;> rw [he] <;> rfl

@[simp] theorem Station.select_slots (new : Selections) (st : Station) : (st.select new).slots = st.slots := by
  rw [Station.select_eq]
  rfl

/-- STATION RESET gives up the open page and keeps the queue (R14). -/
theorem Station.reset_slots (on : Bool) (st : Station) : (st.reset on).slots = (none, st.queue) := by
  rw [Station.reset_eq]
  rfl

@[simp] theorem Work.printed_slots (bytes : Option (List Byte)) (w : Work) : (w.printed t bytes).st.slots = w.st.slots := by
  cases bytes with
  | none => rfl
  | some bs =>
    exact Prod.ext (Work.recorded_proj (f := Station.openPage) (fun e st => st.raise_openPage t.table e) bs w)
      (Work.recorded_proj (f := Station.queue) (fun e st => st.raise_queue t.table e) bs w)

/-- A motion commits and takes a course, or stays on the line and raises RUNAWAY at most (R33, R37). -/
theorem carry_cases (m : Motion) (w : Work) :
    (m.commits t.tape = true ∧ ∃ c : Course, carry t m w = (commit t w).along t c) ∨
    (carry t m w).st.slots = w.st.slots := by
  cases m with
  | space n =>
    rcases Nat.eq_zero_or_pos n with rfl | hn
    · exact .inr rfl
    · exact .inl ⟨bne_iff_ne.mpr hn.ne', _, carry_space hn w⟩
  | skip k =>
    cases hk : t.tape.hasChannel k with
    | true =>
      obtain ⟨c, -, hc⟩ := skipTo_along (t := t) k (commit t w)
      exact .inl ⟨hk, c, (carry_skip hk w).trans hc⟩
    | false =>
      rw [carry_runaway hk]
      exact .inr (Station.raise_slots ..)

/-! ## Strikes that a line has -/

theorem Station.hasStrikes_iff (st : Station) : st.hasStrikes = true ↔ ∃ p : Fin 132, st.strikes[p].strikes ≠ [] := by
  have h := Station.busy_iff { st with openPage := none }
  simpa [Station.busy, Station.hasStrikes] using h

/-- A line has strikes after print bytes only if it had some, or one of the bytes strikes (R53). -/
theorem Work.printed_hasStrikes {bytes : Option (List Byte)} (h : (w.printed t bytes).st.hasStrikes = true) :
    (w.st.hasStrikes || anyStrike t.drum (bytes.getD [])) = true := by
  cases bytes with
  | none =>
    rw [Bool.or_eq_true]
    exact .inl h
  | some bs =>
    have hstrikes : (w.recorded t bs).st.strikes = struckLine t.drum bs w.st.strikes :=
      Work.recorded_proj (f := Station.strikes) (fun e st => st.raise_strikes t.table e) bs w
    obtain ⟨p, hp⟩ := (Station.hasStrikes_iff _).mp h
    rw [Work.printed, hstrikes, struckLine_get] at hp
    rw [Bool.or_eq_true, Station.hasStrikes_iff]
    by_cases hnew : strikesOf (bs[p.val]?.map (lookDrum t.drum)) = []
    · exact .inl ⟨p, by rwa [if_pos hnew] at hp⟩
    · right
      cases hb : bs[p.val]? with
      | none => simp [hb, strikesOf] at hnew
      | some b =>
        rw [hb, Option.map_some, DrumEntry.strike_eq] at hnew
        have hmem : b ∈ bs.take 132 := List.mem_take_iff_getElem.mpr
          ⟨p.val, by have := (List.getElem?_eq_some_iff.mp hb).1; omega, (List.getElem?_eq_some_iff.mp hb).2⟩
        refine List.any_eq_true.mpr ⟨b, hmem, ?_⟩
        cases hs : (lookDrum t.drum b).strike with
        | none => simp [hs] at hnew
        | some x => rfl

/-! ## Slots taken by a line -/

/-- `b` holds as many slots as `a`, or one more, and then `need` holds. -/
def Station.TakesSlot (need : Prop) (a b : Station) : Prop :=
  b.holdings = a.holdings ∨ need ∧ b.holdings = a.holdings + 1

/-- A commit opens a page for a line with strikes that has none (R56, R80). -/
theorem commit_takesSlot (t : Tools) (w : Work) :
    w.st.TakesSlot (w.st.hasStrikes = true ∧ w.st.openPage = none) (commit t w).st := by
  cases hs : w.st.hasStrikes with
  | false =>
    rw [commit_of_no_strikes hs]
    exact .inl rfl
  | true =>
    obtain ⟨-, p, hp, -⟩ := commit_of_strikes (t := t) hs
    unfold Station.TakesSlot Station.holdings
    rw [hp, commit_queue]
    cases w.st.openPage with
    | none => exact .inr ⟨⟨rfl, rfl⟩, by simp; omega⟩
    | some o => exact .inl rfl

/-- A form end moves the open page to the queue, or reports a form without one (R38, R40). -/
theorem formEnd_holdings (t : Tools) (w : Work) : (formEnd t w).st.holdings = w.st.holdings := by
  cases ho : w.st.openPage with
  | none =>
    rw [formEnd_blank ho]
    rfl
  | some p =>
    rw [formEnd_page ho]
    simp [Station.holdings, ho]
    omega

theorem along_holdings (c : Course) (w : Work) : (w.along t c).st.holdings = w.st.holdings := by
  have iterate : ∀ n, ((formEnd t)^[n] w).st.holdings = w.st.holdings := fun n => by
    induction n with
    | zero => rfl
    | succ n ih => rw [Function.iterate_succ_apply', formEnd_holdings, ih]
  exact iterate c.ends

theorem carry_takesSlot (m : Motion) (w : Work) :
    w.st.TakesSlot (m.commits t.tape = true ∧ w.st.hasStrikes = true ∧ w.st.openPage = none) (carry t m w).st := by
  rcases carry_cases (t := t) m w with ⟨hm, c, hc⟩ | hsame
  · rw [hc]
    unfold Station.TakesSlot
    rw [along_holdings]
    exact (commit_takesSlot t w).imp_right fun ⟨hneed, h⟩ => ⟨⟨hm, hneed⟩, h⟩
  · exact .inl (Station.holdings_congr hsame)

/-- A taken PRINT or MOVE takes a slot only if it needs one (R64). -/
theorem lineWork_takesSlot (t : Tools) (c : Control) (bytes : Option (List Byte)) (st : Station) :
    st.TakesSlot (st.needsSlot t c.motion (c.bytesBefore (bytes.getD [])) = true) (lineWork t c bytes st).st := by
  cases hb : c.before with
  | true =>
    rw [lineWork_before hb]
    unfold Station.TakesSlot
    rw [Station.holdings_congr (Work.printed_slots ..)]
    refine (carry_takesSlot c.motion ⟨st, false, false⟩).imp_right fun ⟨⟨hm, hs, ho⟩, h⟩ => ⟨?_, h⟩
    have hs' : st.hasStrikes = true := hs
    have ho' : st.openPage = none := ho
    simp [Station.needsSlot, hm, hs', ho']
  | false =>
    rw [lineWork_after hb]
    have hslots := Work.printed_slots (t := t) bytes ⟨st, false, false⟩
    have hcarry := carry_takesSlot (t := t) c.motion (Work.printed t bytes ⟨st, false, false⟩)
    unfold Station.TakesSlot at hcarry ⊢
    rw [Station.holdings_congr hslots] at hcarry
    refine hcarry.imp_right fun ⟨⟨hm, hs, ho⟩, h⟩ => ⟨?_, h⟩
    have ho' : st.openPage = none := (congrArg Prod.fst hslots).symm.trans ho
    have hs' := Work.printed_hasStrikes hs
    simpa [Station.needsSlot, hm, ho', Control.bytesBefore, hb] using hs'

/-- END JOB takes a slot only for strikes without an open page (R66). -/
theorem endJobWork_takesSlot (t : Tools) (st : Station) :
    st.TakesSlot (st.hasStrikes = true ∧ st.openPage = none) (endJobWork t st).st := by
  have hcommit := commit_takesSlot t ⟨st, false, false⟩
  cases hp : (commit t ⟨st, false, false⟩).st.openPage with
  | none =>
    rw [endJobWork_of_no_page hp]
    exact hcommit
  | some p =>
    obtain ⟨q, line, mark, hqueue, -, -, -, -, -, hwork⟩ := endJobWork_of_page hp
    have hsame : (endJobWork t st).st.holdings = (formEnd t (commit t ⟨st, false, false⟩)).st.holdings := by
      rw [hwork, Station.holdings, Station.holdings, hqueue]
      simp
    unfold Station.TakesSlot
    rw [hsame, formEnd_holdings]
    exact hcommit

end Sys2Proof.Machine
end

section
/-! SUPPORT. The Page Store (R135, R136): no change takes a slot but a line with room for it, and quotas are set to 1 to 12. -/

namespace Sys2Proof.Machine

variable {s t : State} {i : StationId} {st : Station}

/-! ## What leaves the quota alone -/

@[simp] theorem Station.addHolds_quota (h : Holds) (st : Station) : (st.addHolds h).quota = st.quota := by
  rcases st.addHolds_cases h with ⟨he, -⟩ | ⟨he, -⟩ <;> rw [he]

@[simp] theorem Station.removeHolds_quota (h : Holds) (st : Station) : (st.removeHolds h).quota = st.quota := by
  rcases st.removeHolds_cases h with ⟨he, -⟩ | ⟨he, -⟩ <;> rw [he]
  rw [Station.refreshIdle_eq]

@[simp] theorem Station.panel_quota (on : Bool) (st : Station) : (st.panel on).quota = st.quota := by
  cases on with
  | true => exact Station.addHolds_quota _ st
  | false => exact Station.removeHolds_quota _ st

@[simp] theorem Station.drainTest_quota (st : Station) : st.drainTest.quota = st.quota := by
  rcases st.drainTest_cases with he | ⟨-, -, he⟩ <;> rw [he]
  rfl

/-! ## What a change of a station does to its holdings and its quota -/

/-- A change of a station leaves it no more slots than before, or one more where the store can open one. -/
theorem StationChange.holdings (h : StationChange s i st) : st.holdings ≤ (s.station i).holdings ∨
    s.canOpen i = true ∧ st.holdings = (s.station i).holdings + 1 := by
  have same : st.slots = (s.station i).slots → st.holdings ≤ (s.station i).holdings := fun he =>
    (Station.holdings_congr he).le
  have freed : ∀ {p rest}, (s.station i).queue = p :: rest → st.slots = (s.station i).freeHead.slots →
      st.holdings ≤ (s.station i).holdings := by
    intro p rest hq he
    rw [Station.holdings_congr he]
    simp [Station.holdings, Station.freeHead, hq]
  cases h with
  | line c bytes _ hs =>
    exact (lineWork_takesSlot _ c bytes (s.station i)).imp Eq.le fun ⟨hneed, h⟩ => ⟨hs hneed, h⟩
  | endJob _ hs =>
    rw [Station.holdings_congr (Station.finishJob_slots _)]
    exact (endJobWork_takesSlot _ (s.station i)).imp Eq.le fun ⟨⟨hk, ho⟩, h⟩ => ⟨hs hk ho, h⟩
  | raise e => exact .inl (same (Station.raise_slots ..))
  | hold => exact .inl (same (Station.addHolds_slots ..))
  | release => exact .inl (same (Station.release_slots _))
  | panel on => exact .inl (same (Station.panel_slots ..))
  | reset on =>
    left
    rw [Station.holdings, Station.reset_eq]
    simp [Station.holdings]
  | freeAll => exact .inl (by simp [Station.holdings])
  | head x n hq => exact .inl (by simp [Station.holdings, hq])
  | imaged hq => exact .inl (freed hq (Station.drainTest_slots _))
  | refused hq => exact .inl (freed hq ((Station.drainTest_slots _).trans (Station.raise_slots ..)))
  | _ => exact .inl (same rfl)

/-- A change of a station leaves its quota, or is a SET QUOTA (R18). -/
theorem StationChange.quota_cases (h : StationChange s i st) :
    st.quota = (s.station i).quota ∨ ∃ b, st.quota = clampQuota b := by
  have settings : ∀ {x : Station}, x.settings = (s.station i).settings → x.quota = (s.station i).quota := fun h =>
    congrArg (fun y => y.2.2.2.1) h
  cases h with
  | line c bytes =>
    exact .inl (settings (x := (lineWork _ c bytes _).st) (lineWork_settings _ c bytes (s.station i)))
  | raise e => exact .inl (Station.raise_quota ..)
  | endJob =>
    have hw := settings (endJobWork_settings (s.library.tools (s.station i).sel) (s.station i))
    left
    rw [Station.finishJob_eq]
    exact hw
  | hold => exact .inl (Station.addHolds_quota ..)
  | release => exact .inl (Station.removeHolds_quota _ { s.station i with record := _ })
  | panel on => exact .inl (Station.panel_quota ..)
  | reset on => exact .inl (by rw [Station.reset_eq])
  | imaged => exact .inl (Station.drainTest_quota _)
  | refused => exact .inl ((Station.drainTest_quota _).trans (Station.raise_quota ..))
  | quota b => exact .inr ⟨b, rfl⟩
  | _ => exact .inl rfl

theorem clampQuota_bounds (b : Byte) : 1 ≤ clampQuota b ∧ clampQuota b ≤ 12 := by
  simp only [clampQuota, Config.maxQuota]
  omega

/-! ## The law of the store -/

/-- At most 16 slots are owned, at most 12 by a station, and each quota is 1 to 12 (R1, R135, R136). -/
structure State.StoreFits (s : State) : Prop where
  owned : s.owned ≤ 16
  holdings : ∀ i, (s.station i).holdings ≤ 12
  quota : ∀ i, 1 ≤ (s.station i).quota ∧ (s.station i).quota ≤ 12

theorem State.storeFits_iff (s : State) : s.storeBounded = true ↔ s.StoreFits := by
  simp only [State.storeBounded, State.allStations_iff, Bool.and_eq_true, decide_eq_true_eq, and_assoc, forall_and]
  constructor
  · rintro ⟨howned, hholdings, hleast, hmost⟩
    exact ⟨howned, hholdings, fun i => ⟨hleast i, hmost i⟩⟩
  · rintro ⟨howned, hholdings, hquota⟩
    exact ⟨howned, hholdings, forall_and.mp hquota⟩

/-- Station `i`'s slots are exchanged for those of `st`. -/
theorem State.owned_setStation (s : State) (i : StationId) (st : Station) :
    (s.setStation i st).owned + (s.station i).holdings = s.owned + st.holdings := by
  unfold State.owned
  simp only [State.station_setStation]
  fin_cases i <;> simp <;> omega

theorem State.canOpen_iff : s.canOpen i = true ↔ (s.station i).holdings < (s.station i).quota ∧ s.owned < 16 := by
  rw [State.canOpen, Bool.and_eq_true, decide_eq_true_iff, decide_eq_true_iff]
  rfl

/-- A station with no more slots than before, or one more the store could open, keeps the store within its bounds. -/
theorem State.StoreFits.setStation (h : s.StoreFits)
    (hh : st.holdings ≤ (s.station i).holdings ∨ s.canOpen i = true ∧ st.holdings = (s.station i).holdings + 1)
    (hq : 1 ≤ st.quota ∧ st.quota ≤ 12) : (s.setStation i st).StoreFits := by
  obtain ⟨howned, hholdings, hquota⟩ := h
  have hswap := s.owned_setStation i st
  have hi := hholdings i
  have hiq := hquota i
  rw [State.canOpen_iff] at hh
  exact ⟨by omega, State.forall_setStation (P := fun x => x.holdings ≤ 12) hholdings (by omega),
    State.forall_setStation (P := fun x => 1 ≤ x.quota ∧ x.quota ≤ 12) hquota hq⟩

/-- The law looks at the stations alone. -/
theorem State.StoreFits.congr (h : s.StoreFits) (hs : ∀ i, t.station i = s.station i) : t.StoreFits := by
  obtain ⟨howned, hholdings, hquota⟩ := h
  constructor
  · simpa only [State.owned, hs] using howned
  · simpa only [hs] using hholdings
  · simpa only [hs] using hquota

theorem Change.storeFits (hc : Change s t) (h : s.StoreFits) : t.StoreFits := by
  have kept : ∀ {i : StationId} {st : Station}, st.slots = (s.station i).slots → st.quota = (s.station i).quota →
      (s.setStation i st).StoreFits := fun {i} _ hs hq =>
    h.setStation (.inl (Station.holdings_congr hs).le) (hq ▸ h.quota i)
  cases hc with
  | rest hr => exact h.congr fun i => State.station_congr hr.stations i
  | @station i st hst =>
    refine h.setStation hst.holdings ?_
    rcases hst.quota_cases with hq | ⟨b, hq⟩ <;> rw [hq]
    · exact h.quota i
    · exact clampQuota_bounds b
  | select i d t l c =>
    exact (kept (Station.select_slots ..) (by rw [Station.select_eq])).congr fun _ => rfl
  | park i k => exact (kept (i := i) (st := (s.station i).parked) rfl rfl).congr fun _ => rfl
  | resume i k r line => exact (kept (i := i) (st := (s.station i).resumed r line) rfl rfl).congr fun _ => rfl
  | powerOn => exact (State.storeFits_iff _).mp rfl
  | _ => exact h.congr fun _ => rfl

/-- Settles O8: a line opens a page only where the check for its slot has found room. -/
theorem stepKeepsStoreBounded : Obligations.StepKeepsStoreBounded := by
  intro s t hs ht
  rw [State.storeFits_iff] at hs ⊢
  exact step_keeps (fun _ _ h => h.congr fun _ => rfl) (fun _ _ => Change.storeFits) hs ht

end Sys2Proof.Machine
end

section
/-! SUPPORT. The arbiter and the replies as the statements write them (R140 to R146, R155 to R158): the station served, what a
command finds before it acts, and what an outcome leaves at the owning station. -/

namespace Sys2Proof.Machine

variable {s : State} {i : StationId} {p : Page} {rest : List Page} {st : Station}

/-! ## When no choice is due -/

/-- No choice is due while the port is not IDLE (R140). -/
theorem State.not_due_of_state (h : s.port.state ≠ .idle) : s.choiceDue = false := by
  simp [State.choiceDue, Port.choosing, h]

theorem State.arbitrate_of_state (h : s.port.state ≠ .idle) : s.arbitrate = s :=
  State.arbitrate_of_not_due s (State.not_due_of_state h)

/-! ## The end of the sending (R142, R156) -/

theorem State.pageCloseSent_of_queue (hs : s.port.state = .sending) (hf : s.port.flight = some i)
    (hq : (s.station i).queue = p :: rest) : s.pageCloseSent =
      { s.setStation i { s.station i with queue := { p with state := .awaiting } :: rest } with
        port := { s.port with state := .awaitingTaken, replyTimer := true, outgoing := [] } } := by
  simp only [State.pageCloseSent, hs, if_true, State.flightPage_of_queue hf hq, Station.setHead_of_queue _ hq]

/-- Settles O46: the port is SENDING, so no choice comes before. -/
theorem sendingEnds : Obligations.SendingEnds := by
  constructor
  · intro s i p rest hs hf hq
    have ha : s.arbitrate = s := State.arbitrate_of_state (by simp [hs])
    have he : exec .pageCloseSent s = .next s.arbitrate.pageCloseSent := rfl
    rw [he, ha, State.pageCloseSent_of_queue hs hf hq]
  · intro s hs hf
    have ha : s.arbitrate = s := State.arbitrate_of_state (by simp [hs])
    have he : exec .pageVoidSent s = .next s.arbitrate.pageVoidSent := rfl
    rw [he, ha, State.pageVoidSent, if_pos ⟨hs, hf⟩, Port.afterVoid]
    cases s.port.debounced.ready <;> rfl

/-! ## The station served (R140) -/

theorem Station.headReady_iff (st : Station) : st.headReady = true ↔
    ∃ p rest, st.queue = p :: rest ∧ (p.state = .waiting ∨ p.state = .spoiled) := by
  unfold Station.headReady
  cases st.queue with
  | nil => simp
  | cons p rest => simp

theorem Port.choosing_iff (p : Port) :
    p.choosing = true ↔ p.state = .idle ∧ p.debounced.ready = true ∧ p.debounced.cover = false := by
  simp [Port.choosing, and_assoc]

/-- The stations after the pointer in cyclic order, the pointer's last (R140). -/
theorem State.nextServed_eq (s : State) : s.nextServed =
    ((List.finRange 4).map (s.pointer + 1 + ·)).find? fun i => (s.station i).headReady := by
  have h : [s.pointer + 1, s.pointer + 2, s.pointer + 3, s.pointer] = (List.finRange 4).map (s.pointer + 1 + ·) := by
    generalize s.pointer = n
    revert n
    decide
  rw [State.nextServed, h]

/-- Every station stands somewhere after the pointer. -/
theorem exists_eq_pointer_add (n i : Fin 4) : ∃ d : Fin 4, n + 1 + d = i := by
  revert n i
  decide

/-- Some station is served exactly if some head waits. -/
theorem State.nextServed_isSome_iff (s : State) : s.nextServed.isSome = true ↔ ∃ i, (s.station i).headReady = true := by
  rw [State.nextServed_eq, List.find?_isSome]
  constructor
  · rintro ⟨i, -, hi⟩
    exact ⟨i, hi⟩
  · rintro ⟨i, hi⟩
    obtain ⟨d, hd⟩ := exists_eq_pointer_add s.pointer i
    exact ⟨i, List.mem_map.mpr ⟨d, List.mem_finRange d, hd⟩, hi⟩

/-- The station served is the first after the pointer whose head waits. -/
theorem State.nextServed_eq_some {d : Fin 4} (hd : (s.station (s.pointer + 1 + d)).headReady = true)
    (hbefore : ∀ d' : Fin 4, d' < d → (s.station (s.pointer + 1 + d')).headReady = false) :
    s.nextServed = some (s.pointer + 1 + d) := by
  have hfirst : (List.finRange 4).find? (fun k => (s.station (s.pointer + 1 + k)).headReady) = some d := by
    rw [List.find?_eq_some_iff_getElem]
    refine ⟨hd, d.val, by simp, by simp, fun j hj => ?_⟩
    have := hbefore ⟨j, by omega⟩ hj
    simpa using this
  rw [State.nextServed_eq, List.find?_map]
  exact congrArg (Option.map _) hfirst

/-- A choice starts sending the head of the station served (R140, R142, R155). -/
theorem State.arbitrate_of_served (hc : s.port.choosing = true) (hn : s.nextServed = some i)
    (hq : (s.station i).queue = p :: rest) : s.arbitrate =
      { s.setStation i { s.station i with queue := { p with state := .sending } :: rest } with
        pointer := i
        port := { s.port with state := .sending, flight := some i, outgoing := p.records i, returned := false } } := by
  simp only [State.arbitrate, hc, if_true, hn, hq, Station.setHead_of_queue _ hq]

/-! ## What a command finds before it acts (R141, R161) -/

/-- The choice comes before a line's change, unless the change falls together with the reply just taken (R161). -/
theorem State.beforeLine_of_alone {l : Line} {b : Bool} (h : s.port.returned = false ∨ losesImager l b = false) :
    s.beforeLine l b = s.arbitrate := by
  rcases s.beforeLine_cases l b with he | ⟨-, hr, hl, -, -⟩
  · exact he
  · rw [hr, hl] at h
    simp at h

@[simp] theorem State.beforeLine_arbitrate (l : Line) (b : Bool) : s.arbitrate.beforeLine l b = s.arbitrate :=
  State.beforeLine_of_not_due _ l b s.arbitrate_not_due

@[simp] theorem State.arbitrate_setup : s.arbitrate.port.setup = s.port.setup := by
  obtain ⟨-, -, -, -, -, -, hsetup, -⟩ := s.arbitrate_keeps
  exact hsetup

@[simp] theorem State.arbitrate_raw : s.arbitrate.port.raw = s.port.raw := by
  obtain ⟨-, -, -, -, -, hraw, -⟩ := s.arbitrate_keeps
  exact hraw

theorem losesImager_iff (l : Line) (b : Bool) :
    losesImager l b = true ↔ l = .ready ∧ b = false ∨ l = .fault ∧ b = true := by
  cases l <;> simp [losesImager]

theorem State.rawChange_arbitrate {l : Line} {b : Bool}
    (h : s.port.setup.debounce.get l = .off → s.port.returned = false ∨ losesImager l b = false) :
    s.arbitrate.rawChange l b = s.rawChange l b := by
  unfold State.rawChange
  rw [State.arbitrate_setup]
  split
  · rename_i hoff
    rw [State.beforeLine_arbitrate, State.beforeLine_of_alone (h hoff)]
  · rw [State.arbitrate_arbitrate]

/-- The bytes of the quiet test are read after a due choice. -/
theorem readImagerBytes_arbitrate (bytes : List Byte) (s : State) :
    readImagerBytes bytes s.arbitrate = readImagerBytes bytes s := by
  unfold readImagerBytes
  cases bytes with
  | nil => exact s.arbitrate_arbitrate
  | cons b bytes => simp only [State.arbitrate_arbitrate]

/-- The commands that can take the imager away: a fall of READY, a rise of FAULT, and a raw change that is one at once (R161). -/
def State.LosesImagerBy (s : State) (c : Instr) : Prop :=
  c = .debouncedReadyFall ∨ c = .debouncedFaultRise ∨ ∃ l b, c = .rawLevelChange l b ∧
    s.port.setup.debounce.get l = .off ∧ (l = .ready ∧ b = false ∨ l = .fault ∧ b = true)

/-- A command does what it does after the choice, but for one that falls together with the reply just taken (R141, R161). -/
theorem exec_arbitrate {c : Instr} (h : s.port.returned = false ∨ ¬ s.LosesImagerBy c) : exec c s = exec c s.arbitrate := by
  have after : ∀ f : State → State, Host.Outcome.next (φ := Fault) (ρ := Refusal) (f s.arbitrate) =
      .next (f s.arbitrate.arbitrate) := fun f => by rw [State.arbitrate_arbitrate]
  have alone : ∀ {l : Line} {b : Bool}, (s.port.returned = false ∨ losesImager l b = false) →
      Host.Outcome.next (φ := Fault) (ρ := Refusal) ((s.beforeLine l b).debouncedEvent l b) =
        .next ((s.arbitrate.beforeLine l b).debouncedEvent l b) := fun hl => by
    rw [State.beforeLine_of_alone hl, State.beforeLine_arbitrate]
  cases c with
  | powerOn =>
    change execPowerOn s = execPowerOn s.arbitrate
    rw [execPowerOn, execPowerOn, State.arbitrate_raw, State.arbitrate_pending]
  | debouncedReadyFall => exact alone (.inl (h.resolve_right (not_not.mpr (.inl rfl))))
  | debouncedFaultRise => exact alone (.inl (h.resolve_right (not_not.mpr (.inr (.inl rfl)))))
  | rawLevelChange l b =>
    refine congrArg Host.Outcome.next (State.rawChange_arbitrate fun hoff => ?_).symm
    refine h.imp_right fun hloses => Bool.eq_false_iff.mpr fun hl => hloses ?_
    exact .inr (.inr ⟨l, b, rfl, hoff, (losesImager_iff l b).mp hl⟩)
  | imagerLinkQuietTest bytes => exact congrArg Host.Outcome.next (readImagerBytes_arbitrate bytes s).symm
  | replyTimerExpiry => exact after fun u => u.portTimeout u.port.replyTimer
  | imagingTimerExpiry => exact after fun u => u.portTimeout u.port.imagingTimer.isSome
  | arbiterChoice => exact after id
  | linkReset => exact after State.linkReset
  | linkResetRelease => exact after State.linkRelease
  | endingStatusRead => exact after State.readStatus
  | interByteTimerExpiry => exact after State.interByteExpiry
  | byteTaken b => exact after (State.takeByte · b)
  | idleTimerExpiry j => exact after (State.idleExpiry j)
  | debouncedReadyRise => exact after (State.debouncedEvent .ready true)
  | debouncedFaultFall => exact after (State.debouncedEvent .fault false)
  | debouncedCoverChange b => exact after (State.debouncedEvent .cover b)
  | debouncedMediaLowChange b => exact after (State.debouncedEvent .mediaLow b)
  | holdSwitchOn => exact after (State.debouncedEvent .hold true)
  | holdSwitchOff => exact after (State.debouncedEvent .hold false)
  | pageCloseSent => exact after State.pageCloseSent
  | pageVoidSent => exact after State.pageVoidSent
  | taken sum => exact after (State.checkedReply sum State.replyTaken)
  | refused reason sum => exact after (State.checkedReply sum State.replyRefused)
  | imaged station page sum => exact after (State.checkedReply sum (State.replyImaged station page))
  | spoiled station page sum => exact after (State.checkedReply sum (State.replySpoiled station page))
  | _ => exact after fun u => u.receiveOrder _ _ _

/-- Settles O45: the station served, and what every command finds before it acts. -/
theorem arbiterChoosesInTurn : Obligations.ArbiterChoosesInTurn := by
  intro s waits open_
  have hwaits : ∀ i, (s.station i).headReady = true ↔ waits i := fun i => Station.headReady_iff _
  have hopen : s.port.choosing = true ↔ open_ := Port.choosing_iff _
  have hdue : s.choiceDue = true ↔ open_ ∧ ∃ i, waits i := by
    rw [State.choiceDue, Bool.and_eq_true, hopen, State.nextServed_isSome_iff]
    simp only [hwaits]
  refine ⟨hdue, fun hno => ?_, ?_, rfl, s.arbitrate_not_due, fun c hc => exec_arbitrate hc⟩
  · have hd : s.choiceDue = false := by
      rw [Bool.eq_false_iff, ne_eq, hdue, not_and_or, not_exists]
      exact hno
    exact congrArg Host.Outcome.next (State.arbitrate_of_not_due s hd)
  · intro d p rest ho i hbefore hq hp
    have hserved : s.nextServed = some i :=
      State.nextServed_eq_some ((hwaits i).mpr ⟨p, rest, hq, hp⟩) fun d' hd' =>
        Bool.eq_false_iff.mpr fun hr => hbefore d' hd' ((hwaits _).mp hr)
    exact congrArg Host.Outcome.next (State.arbitrate_of_served (hopen.mpr ho) hserved hq)

end Sys2Proof.Machine
end

section
/-! SUPPORT. The replies of the imager and their outcomes at the owning station (R144 to R146, R157, R158, R162). -/

namespace Sys2Proof.Machine

variable {s : State} {i : StationId} {p : Page} {rest : List Page} {st : Station}

/-! ## What an outcome leaves of the owning station -/

theorem Station.holdings_eq_zero_iff (st : Station) : st.holdings = 0 ↔ st.openPage = none ∧ st.queue = [] := by
  unfold Station.holdings
  cases st.openPage <;> simp

/-- The drain test by the pages the station owns (R10, R146). -/
theorem Station.drainTest_eq (st : Station) : st.drainTest =
    if st.state = .draining ∧ st.openPage = none ∧ st.queue = [] then
      { st with state := (if st.holds.isEmpty then .ready else .held), causes := { st.causes with drained := true } }
    else st := by
  simp only [Station.drainTest, Station.holdings_eq_zero_iff]
  rfl

/-- A full report list drops its oldest summary (R23). -/
theorem Station.addReport_of_bounded (x : Summary) (h : st.reports.length ≤ 8) : st.addReport x = { st with
    reports := (if st.reports.length = 8 then st.reports.tail else st.reports) ++ [x]
    causes := { st.causes with reportAdded := true } } := by
  have hdrop : st.reports.drop (st.reports.length + 1 - 8) =
      if st.reports.length = 8 then st.reports.tail else st.reports := by
    split
    · rename_i hfull
      rw [hfull, List.drop_one]
    · rw [Nat.sub_eq_zero_of_le (by omega), List.drop_zero]
  rw [← hdrop]
  rfl

/-- The queue's head freed and a summary reported. -/
def Station.reported (x : Summary) (rest : List Page) (st : Station) : Station := { st with
  queue := rest
  reports := (if st.reports.length = 8 then st.reports.tail else st.reports) ++ [x]
  causes := { st.causes with reportAdded := true } }

theorem Station.freeHead_addReport (x : Summary) (hq : st.queue = p :: rest) (h : st.reports.length ≤ 8) :
    st.freeHead.addReport x = st.reported x rest := by
  rw [Station.addReport_of_bounded (st := st.freeHead) x h, Station.freeHead, hq]
  rfl

theorem Station.imagedOutcome_eq (hq : st.queue = p :: rest) (h : st.reports.length ≤ 8) :
    st.imagedOutcome p = (st.countImaged.reported (p.summary false) rest).drainTest :=
  congrArg Station.drainTest (Station.freeHead_addReport (st := st.countImaged) _ hq h)

theorem Station.refusedOutcome_eq (table : Dispositions) (hq : st.queue = p :: rest) (h : st.reports.length ≤ 8) :
    st.refusedOutcome table p =
      ((st.reported (p.summary true) rest).raise table ⟨.imagerRefused, p.page, st.line, none, none⟩).drainTest := by
  rw [Station.refusedOutcome, Station.freeHead_addReport _ hq h]
  rfl

/-- The owning station after a spoil, as the statements write it (R162). -/
theorem State.spoilHead_eq (timeout : Bool) (hq : (s.station i).queue = p :: rest) :
    (s.station i).spoilHead s.library.dispositions timeout p = s.spoiledOwner i timeout p rest := by
  have hthird : p.spoils + 1 = Config.repeatedSpoils ↔ p.spoils = 2 := Nat.succ_inj
  unfold Station.spoilHead State.spoiledOwner
  simp only [Station.setHead_of_queue _ hq, hthird, Station.pageEntry]
  cases timeout
  · rfl
  · simp only [if_true, Station.raise_line]
    rfl

/-! ## The replies (R157, R158) -/

/-- A right TAKEN, REFUSED, IMAGED or SPOILED is taken as it comes while the port has a page at the imager. -/
theorem State.checkedReply_of_state (take : State → State) (h : s.port.state ≠ .idle) :
    s.arbitrate.checkedReply 0 take = take s := by
  rw [State.arbitrate_of_state h, State.checkedReply_right]

/-- The port returns to IDLE with the owning station at `st`, and a choice may be due by this reply (R158, log entry 23). -/
def State.returnWith (s : State) (i : StationId) (st : Station) : State :=
  { s.setStation i st with port := s.port.clearFlight .idle }.markReturn

theorem State.replyRefused_taken (hs : s.port.state = .awaitingTaken) (hf : s.flightPage = some (i, p)) :
    s.replyRefused = s.returnWith i ((s.station i).refusedOutcome s.library.dispositions p) := by
  simp only [State.replyRefused, hs, if_true, hf]
  rfl

theorem State.matching_of_flight (hs : s.port.state = .imaging) (hf : s.flightPage = some (i, p)) :
    s.matching (byteOf i.val) p.page = some (i, p) :=
  State.matching_eq_some.mpr ⟨hs, hf, rfl, rfl⟩

theorem State.replyImaged_taken (hs : s.port.state = .imaging) (hf : s.flightPage = some (i, p)) :
    s.replyImaged (byteOf i.val) p.page = s.returnWith i ((s.station i).imagedOutcome p) := by
  simp only [State.replyImaged, State.matching_of_flight hs hf]
  rfl

theorem State.replySpoiled_taken (hs : s.port.state = .imaging) (hf : s.flightPage = some (i, p)) :
    s.replySpoiled (byteOf i.val) p.page =
      s.returnWith i ((s.station i).spoilHead s.library.dispositions false p) := by
  simp only [State.replySpoiled, State.matching_of_flight hs hf, State.spoilFlight_some _ _ hf]
  rfl

/-- Settles O47: no choice comes before a reply that names the page at the imager, and its outcome is the owning station's. -/
theorem repliesReachThePage : Obligations.RepliesReachThePage := by
  constructor
  · intro s hs
    have he : exec (.taken 0) s = .next (s.arbitrate.checkedReply 0 State.replyTaken) := rfl
    rw [he, State.checkedReply_of_state _ (by simp [hs]), State.replyTaken_taken hs]
  · intro s i p rest hf hq hr st drained back summary reported
    have hflight : s.flightPage = some (i, p) := State.flightPage_of_queue hf hq
    have hdrained : ∀ x : Station, x.queue = rest → x.drainTest = drained x := fun x hx => by
      subst hx
      exact Station.drainTest_eq x
    refine ⟨fun hs => ?imaged, fun hs reason => ?refused, fun hs => ?spoiled⟩
    case imaged =>
      have he : exec (.imaged (byteOf i.val) p.page 0) s =
        .next (s.arbitrate.checkedReply 0 (State.replyImaged (byteOf i.val) p.page)) := rfl
      rw [he, State.checkedReply_of_state _ (by simp [hs]), State.replyImaged_taken hs hflight,
        Station.imagedOutcome_eq hq hr, hdrained _ rfl]
      rfl
    case refused =>
      have he : exec (.refused reason 0) s = .next (s.arbitrate.checkedReply 0 State.replyRefused) := rfl
      rw [he, State.checkedReply_of_state _ (by simp [hs]), State.replyRefused_taken hs hflight,
        Station.refusedOutcome_eq _ hq hr, hdrained _ (Station.raise_queue ..)]
      rfl
    case spoiled =>
      have he : exec (.spoiled (byteOf i.val) p.page 0) s =
        .next (s.arbitrate.checkedReply 0 (State.replySpoiled (byteOf i.val) p.page)) := rfl
      rw [he, State.checkedReply_of_state _ (by simp [hs]), State.replySpoiled_taken hs hflight, State.spoilHead_eq false hq]
      rfl

end Sys2Proof.Machine
end

section
/-! SUPPORT. What orders leave of a station's slots (R82, R134, R138): a page they open is OPEN, and the pages they close join
the queue WAITING behind those that stand there. -/

namespace Sys2Proof.Machine

variable {s u : State} {i : StationId} {st : Station} {t : Tools} {w : Work}

/-! ## Stations that compose -/

/-- The slots of `b` come from those of `a` by composing: an open page is OPEN if it was, and pages join the queue WAITING. -/
structure Station.Extends (a b : Station) : Prop where
  opened : (∀ p, a.openPage = some p → p.state = .opened) → ∀ p, b.openPage = some p → p.state = .opened
  queue : ∃ new, b.queue = a.queue ++ new ∧ ∀ p ∈ new, p.state = .waiting

theorem Station.Extends.of_slots {a b : Station} (h : b.slots = a.slots) : a.Extends b := by
  obtain ⟨hopen, hqueue⟩ := Prod.mk.inj h
  exact ⟨fun ha => hopen ▸ ha, [], by rw [hqueue, List.append_nil], fun _ hp => absurd hp List.not_mem_nil⟩

theorem Station.Extends.refl (a : Station) : a.Extends a := .of_slots rfl

theorem Station.Extends.trans {a b c : Station} (h : a.Extends b) (h' : b.Extends c) : a.Extends c := by
  obtain ⟨new, hb, hnew⟩ := h.queue
  obtain ⟨new', hc, hnew'⟩ := h'.queue
  refine ⟨fun ha => h'.opened (h.opened ha), new ++ new', by rw [hc, hb, List.append_assoc], fun p hp => ?_⟩
  exact (List.mem_append.mp hp).elim (hnew p) (hnew' p)

/-- A station without an open page, its queue kept but for pages that join it WAITING. -/
theorem Station.Extends.of_closed {a b : Station} (ho : b.openPage = none) {new : List Page} (hq : b.queue = a.queue ++ new)
    (hnew : ∀ p ∈ new, p.state = .waiting) : a.Extends b :=
  ⟨fun _ _ hp => (nomatch ho.symm.trans hp), new, hq, hnew⟩

/-! ## The work of a line -/

theorem commit_extends (t : Tools) (w : Work) : w.st.Extends (commit t w).st := by
  cases hs : w.st.hasStrikes with
  | false =>
    rw [commit_of_no_strikes hs]
    exact .of_slots rfl
  | true =>
    refine ⟨fun hopened p hp => ?_, [], by rw [commit_queue, List.append_nil], fun _ hp => absurd hp List.not_mem_nil⟩
    have htaken : (w.st.filingPage t.layout).taken t w.st.cells w.st.line (commitVisit t w).1 = p := by
      rw [commit_eq hs] at hp
      exact Option.some.inj hp
    have hfiling : (w.st.filingPage t.layout).state = .opened := by
      cases ho : w.st.openPage with
      | none => simp [Station.filingPage, ho, Page.opening]
      | some o => simpa [Station.filingPage, ho] using hopened o ho
    rw [← htaken]
    exact hfiling

theorem formEnd_extends (t : Tools) (w : Work) : w.st.Extends (formEnd t w).st := by
  obtain ⟨ho, hq | ⟨-, q, hq, hwaiting, -⟩⟩ := formEnd_queue t w
  · exact .of_closed ho (new := []) (by rw [hq, List.append_nil]) fun _ hp => absurd hp List.not_mem_nil
  · exact .of_closed ho hq (List.forall_mem_singleton.mpr hwaiting)

theorem along_extends (c : Course) (w : Work) : w.st.Extends (w.along t c).st := by
  have iterate : ∀ n, w.st.Extends ((formEnd t)^[n] w).st := fun n => by
    induction n with
    | zero => exact .refl _
    | succ n ih =>
      rw [Function.iterate_succ_apply']
      exact ih.trans (formEnd_extends t _)
  exact (iterate c.ends).trans (.of_slots rfl)

theorem carry_extends (m : Motion) (w : Work) : w.st.Extends (carry t m w).st := by
  rcases carry_cases (t := t) m w with ⟨-, c, hc⟩ | hsame
  · rw [hc]
    exact (commit_extends t w).trans (along_extends c _)
  · exact .of_slots hsame

theorem lineWork_extends (t : Tools) (c : Control) (bytes : Option (List Byte)) (st : Station) :
    st.Extends (lineWork t c bytes st).st := by
  cases hb : c.before with
  | true =>
    rw [lineWork_before hb]
    exact (carry_extends c.motion ⟨st, false, false⟩).trans (.of_slots (Work.printed_slots ..))
  | false =>
    rw [lineWork_after hb]
    have hprinted : st.Extends (Work.printed t bytes ⟨st, false, false⟩).st := .of_slots (Work.printed_slots ..)
    exact hprinted.trans (carry_extends c.motion _)

theorem endJobWork_extends (t : Tools) (st : Station) : st.Extends (endJobWork t st).st := by
  cases hp : (commit t ⟨st, false, false⟩).st.openPage with
  | none =>
    rw [endJobWork_of_no_page hp]
    exact commit_extends t ⟨st, false, false⟩
  | some p =>
    obtain ⟨q, line, mark, -, hwaiting, -, -, -, -, hwork⟩ := endJobWork_of_page hp
    have hqueue : (endJobWork t st).st.queue = st.queue ++ [q] := by rw [hwork]
    exact .of_closed (endJobWork_not_busy t st).1 hqueue (List.forall_mem_singleton.mpr hwaiting)

/-! ## The orders at a station -/

theorem Station.lineOrder_extends (t : Tools) (free seq : Bool) (control : Byte) (bytes : Option (List Byte)) (st : Station) :
    st.Extends (st.lineOrder t free seq control bytes).1 := by
  rcases Station.lineOrder_cases t free seq control bytes st with ⟨h, -⟩ | ⟨h, -, -⟩ | ⟨-, -, c, -, h, -⟩ <;> rw [h]
  · exact .refl st
  · exact .of_slots (Station.raise_slots ..)
  · exact (lineWork_extends t c bytes st).trans (.of_slots rfl)

theorem Station.beginJob_extends (job page : Half) (st : Station) : st.Extends (st.beginJob job page).1 := by
  unfold Station.beginJob
  split
  · exact .refl st
  · split
    · split
      · exact .refl st
      · exact .of_slots rfl
    · exact .refl st
    · exact .refl st

theorem Station.endJob_extends (t : Tools) (free : Bool) (st : Station) : st.Extends (st.endJob t free).1 := by
  unfold Station.endJob
  split
  · split
    · exact .refl st
    · exact (endJobWork_extends t st).trans (.of_slots (Station.finishJob_slots _))
  · exact .refl st
  · exact .refl st

theorem Station.stop_extends (st : Station) : st.Extends st.stop.1 := by
  unfold Station.stop
  split
  · exact .refl st
  · exact .refl st
  · exact .of_slots rfl

theorem Station.reset_extends (on : Bool) (st : Station) : st.Extends (st.reset on) := by
  obtain ⟨hopen, hqueue⟩ := Prod.mk.inj (st.reset_slots on)
  exact .of_closed hopen (new := []) (by rw [hqueue, List.append_nil]) fun _ hp => absurd hp List.not_mem_nil

theorem Station.report_extends (b : Byte) (st : Station) : st.Extends (st.report b).1 := by
  unfold Station.report
  split
  · exact .of_slots rfl
  · exact .refl st

/-! ## The orders of a station -/

/-- Every station of `u` extends that of `s`, and the port is the same. -/
structure State.Extends (s u : State) : Prop where
  port : u.port = s.port
  station : ∀ j, (s.station j).Extends (u.station j)

/-- An order of station `i` extends the stations if it extends its own. -/
theorem State.OwnedBy.extends (h : s.OwnedBy i u) (hi : (s.station i).Extends (u.station i)) : s.Extends u where
  port := h.port
  station j := by
    by_cases hj : j = i
    · exact hj ▸ hi
    · rw [h.others j hj]
      exact .refl _

theorem State.Extends.of_stations (hs : ∀ j, u.station j = s.station j) (hp : u.port = s.port) : s.Extends u :=
  ⟨hp, fun j => hs j ▸ .refl _⟩

theorem State.Extends.refl (s : State) : s.Extends s := .of_stations (fun _ => rfl) rfl

theorem TableWrite.extends (h : TableWrite s u) : s.Extends u := by
  obtain ⟨hstation, -, hport, -, -⟩ := h.frame
  exact .of_stations hstation hport

theorem State.Extends.setStation (h : (s.station i).Extends st) : s.Extends (s.setStation i st) :=
  (State.OwnedBy.setStation st).extends (by rwa [State.station_setStation_same])

/-- Station `i` at `st`, and whatever else but the stations and the port. -/
theorem State.Extends.setStation_congr (h : (s.station i).Extends st) (hs : u.stations = (s.setStation i st).stations)
    (hp : u.port = s.port) : s.Extends u :=
  ⟨hp, fun j => State.station_congr hs j ▸ (State.Extends.setStation h).station j⟩

theorem State.Extends.ite {p : Prop} [Decidable p] {r r' : State × Answer} (h : s.Extends r.1) (h' : s.Extends r'.1) :
    s.Extends (if p then r else r').1 := by
  split
  · exact h
  · exact h'

theorem State.Extends.stationOrder {params : List Byte} {f : Byte → Byte → Byte → Byte → Station → Station × Answer}
    (h : ∀ a b c d, (s.station i).Extends (f a b c d (s.station i)).1) : s.Extends (s.stationOrder i params f).1 := by
  unfold State.stationOrder
  split
  · exact .setStation (h ..)
  · exact .refl s

theorem orderPrint_extends (seq : Bool) (data : List Byte) : s.Extends (orderPrint i seq data s).1 := by
  unfold orderPrint
  split
  · exact .refl s
  · exact .setStation (Station.lineOrder_extends ..)

theorem orderMove_extends (seq : Bool) (data : List Byte) : s.Extends (orderMove i seq data s).1 := by
  unfold orderMove
  split
  · exact .setStation (Station.lineOrder_extends ..)
  · exact .refl s

theorem orderSelect_extends (data : List Byte) : s.Extends (orderSelect i data s).1 := by
  unfold orderSelect
  split
  · split
    · exact .ite (.refl s) <| .ite (.refl s) <| .ite (.refl s) <| .ite (.refl s) <|
        .setStation_congr (.of_slots (Station.select_slots ..)) rfl rfl
    · exact .refl s
  · exact .refl s

theorem orderPark_extends (params : List Byte) : s.Extends (orderPark i params s).1 := by
  have hparked : (s.station i).Extends (s.station i).parked := .of_slots rfl
  unfold orderPark
  split
  · split
    · exact .refl s
    · exact .ite (.refl s) <| .ite (.refl s) <| .ite (.refl s) <| .setStation_congr hparked rfl rfl
  · exact .refl s

theorem orderResume_extends (params : List Byte) : s.Extends (orderResume i params s).1 := by
  have hresumed : ∀ r line, (s.station i).Extends ((s.station i).resumed r line) := fun _ _ => .of_slots rfl
  unfold orderResume
  split
  · split
    · exact .refl s
    · refine .ite (.refl s) <| .ite (.refl s) <| .ite (.refl s) ?_
      split
      · exact .refl s
      · exact .setStation_congr (hresumed _ _) rfl rfl
  · exact .refl s

theorem orderStation_extends (data : List Byte) : s.Extends (orderStation i data s).1 := by
  unfold orderStation
  refine .ite (.refl s) ?_
  split
  · exact .refl s
  · refine .ite ?beginJob <| .ite ?endJob <| .ite ?hold <| .ite ?release <| .ite ?stop <| .ite ?reset <|
      .ite (orderPark_extends _) <| .ite (orderResume_extends _) <| .ite ?quota <| .ite ?timer <| .ite ?matchValue (.refl s)
    case beginJob => exact .stationOrder fun _ _ _ _ => Station.beginJob_extends ..
    case endJob => exact .stationOrder fun _ _ _ _ => Station.endJob_extends ..
    case hold => exact .stationOrder fun _ _ _ _ => .of_slots (Station.addHolds_slots ..)
    case release => exact .stationOrder fun _ _ _ _ => .of_slots (Station.release_slots _)
    case stop => exact .stationOrder fun _ _ _ _ => Station.stop_extends _
    case reset => exact .stationOrder fun _ _ _ _ => Station.reset_extends ..
    case quota => exact .stationOrder fun _ _ _ _ => .of_slots rfl
    case timer => exact .stationOrder fun _ _ _ _ => .of_slots rfl
    case matchValue => exact .stationOrder fun _ _ _ _ => .of_slots rfl

theorem orderSense_extends (data : List Byte) : s.Extends (orderSense i data s).1 := by
  unfold orderSense
  split
  · exact .setStation_congr (i := i) (st := (s.station i).clearBy _) (.of_slots rfl) rfl rfl
  · exact .refl s

theorem orderReport_extends (data : List Byte) : s.Extends (orderReport i data s).1 := by
  unfold orderReport
  split
  · exact .setStation (Station.report_extends ..)
  · exact .refl s

/-! ## The orders of the device -/

theorem orderLibraryClear_extends (params : List Byte) : s.Extends (orderLibraryClear params s).1 := by
  have written : ∀ lib : Library, s.Extends { s with library := lib } := fun _ => .of_stations (fun _ => rfl) rfl
  unfold orderLibraryClear
  split
  · refine .ite ?_ <| .ite ?_ <| .ite ?_ <| .ite ?_ (.refl s)
    all_goals
      split
      · exact .refl s
      · exact .ite (.refl s) (written _)
  · exact .refl s

theorem orderAttentionSetup_extends (params : List Byte) : s.Extends (orderAttentionSetup params s).1 := by
  unfold orderAttentionSetup
  split
  · split
    · exact .refl s
    · split
      · exact .of_stations (fun _ => rfl) rfl
      · exact .refl s
  · exact .refl s

/-- What an order makes of the slots and the port: the stations extended, an IMAGER SETUP or a DEVICE CLEAR. -/
def State.Ordered (s u : State) : Prop := s.Extends u ∨ (∃ x, u = s.applySetup x) ∨ u = s.deviceClear

theorem State.Extends.ordered (h : s.Extends u) : s.Ordered u := .inl h

theorem State.Ordered.ite {p : Prop} [Decidable p] {r r' : State × Answer} (h : s.Ordered r.1) (h' : s.Ordered r'.1) :
    s.Ordered (if p then r else r').1 := by
  split
  · exact h
  · exact h'

theorem orderImagerSetup_ordered (params : List Byte) : s.Ordered (orderImagerSetup params s).1 := by
  unfold orderImagerSetup
  split
  · exact (State.Extends.refl s).ordered
  · split
    · exact (State.Extends.refl s).ordered
    · rename_i x _
      dsimp only
      exact .inr (.inl ⟨x, rfl⟩)

theorem orderDeviceClear_ordered (params : List Byte) : s.Ordered (orderDeviceClear params s).1 := by
  unfold orderDeviceClear
  split
  · exact .inr (.inr rfl)
  · exact (State.Extends.refl s).ordered

theorem orderDevice_ordered (data : List Byte) : s.Ordered (orderDevice data s).1 := by
  unfold orderDevice
  split
  · exact (State.Extends.refl s).ordered
  · exact .ite (orderAttentionSetup_extends _).ordered <| .ite (orderImagerSetup_ordered _) <|
      .ite (orderDeviceClear_ordered _) <| .ite (orderLibraryClear_extends _).ordered (State.Extends.refl s).ordered

theorem carryOut_ordered (l : Lead) (data : List Byte) (s : State) : s.Ordered (carryOut l data s).1 :=
  .ite (orderPrint_extends ..).ordered <| .ite (orderMove_extends ..).ordered <| .ite (orderSelect_extends _).ordered <|
    .ite (orderLoadDrum_writes _ s).extends.ordered <| .ite (orderLoadTape_writes _ s).extends.ordered <|
    .ite (orderLoadLayout_writes _ s).extends.ordered <| .ite (orderLoadCollation_writes _ s).extends.ordered <|
    .ite (orderLoadConditions_writes _ s).extends.ordered <| .ite (orderStation_extends _).ordered <|
    .ite (orderSense_extends _).ordered <| .ite (orderReport_extends _).ordered <| .ite (orderDevice_ordered _) <|
    .ite (State.Extends.refl s).ordered (State.Extends.refl s).ordered

end Sys2Proof.Machine
end

section
/-! SUPPORT. The page at the imager (R134, R140, R150): it is the head of its owner's queue in the slot state of the port state,
every other closed page rests, and the timers run in their port states. -/

namespace Sys2Proof.Machine

variable {s u : State} {i : StationId} {st : Station}

/-! ## The law -/

/-- The parts of the port that the law reads: its state, the owner of the page in flight, and the timers. -/
def Port.stage (p : Port) : PortState × Option StationId × Bool × Option Nat :=
  (p.state, p.flight, p.replyTimer, p.imagingTimer)

/-- Every closed page of the station rests. -/
def Station.Rests (st : Station) : Prop := ∀ p ∈ st.queue, p.rests = true

/-- The head of the station's queue is at the imager in slot state `x`; the pages behind it rest. -/
def Station.AtImager (x : Option SlotState) (st : Station) : Prop :=
  ∃ p rest, st.queue = p :: rest ∧ some p.state = x ∧ ∀ q ∈ rest, q.rests = true

/-- Neither timer of the port runs in this state, and no page need be at the imager (R150). -/
def PortState.Untimed (x : PortState) : Prop := x ≠ .awaitingTaken ∧ x ≠ .imaging

/-- At most one page is at the imager, the head of its owner's queue, in the slot state of the port state, and the timers run in
their port states (R140, R150). -/
structure State.FlightFits (s : State) : Prop where
  opened : ∀ i p, (s.station i).openPage = some p → p.state = .opened
  resting : ∀ i, s.port.flight ≠ some i → (s.station i).Rests
  flying : ∀ i, s.port.flight = some i → (s.station i).AtImager s.port.state.slotState
  untimed : s.port.flight = none → s.port.state.Untimed
  replyTimer : s.port.replyTimer = true ↔ s.port.state = .awaitingTaken
  imagingTimer : s.port.imagingTimer.isSome = true ↔ s.port.state = .imaging

theorem State.slotsAgreeAt_iff (s : State) (i : StationId) : s.slotsAgreeAt i = true ↔
    (∀ p, (s.station i).openPage = some p → p.state = .opened) ∧
    (s.port.flight ≠ some i → (s.station i).Rests) ∧
    (s.port.flight = some i → (s.station i).AtImager s.port.state.slotState) := by
  have hopen : ((s.station i).openPage.all fun p => p.state == .opened) = true ↔
      ∀ p, (s.station i).openPage = some p → p.state = .opened := by
    cases (s.station i).openPage <;> simp
  rw [State.slotsAgreeAt, Bool.and_eq_true, hopen]
  refine and_congr_right fun _ => ?_
  by_cases hf : s.port.flight = some i
  · rw [if_pos hf]
    cases hq : (s.station i).queue with
    | nil => simp [hf, Station.AtImager, hq]
    | cons p rest => simp [hf, Station.AtImager, hq]
  · rw [if_neg hf]
    simp [hf, Station.Rests]

/-- The law of the whole part: the flight fits, and a reply's mark stands only while a choice is due (log entry 23). -/
def State.FlightLaw (s : State) : Prop := s.FlightFits ∧ (s.port.returned = true → s.choiceDue = true)

theorem State.flightLaw_iff (s : State) : s.flightAgrees = true ↔ s.FlightLaw := by
  have hall : (s.slotsAgreeAt 0 = true ∧ s.slotsAgreeAt 1 = true ∧ s.slotsAgreeAt 2 = true ∧ s.slotsAgreeAt 3 = true) ↔
      ∀ i, s.slotsAgreeAt i = true := by
    simp [Fin.forall_fin_succ]
  have huntimed : (s.port.flight.isSome || (s.port.state != .awaitingTaken && s.port.state != .imaging)) = true ↔
      (s.port.flight = none → s.port.state.Untimed) := by
    cases s.port.flight <;> simp [PortState.Untimed]
  have htimer : ∀ (b : Bool) (x : PortState), (b == (s.port.state == x)) = true ↔ (b = true ↔ s.port.state = x) := by
    intro b x
    rw [beq_iff_eq, Bool.eq_iff_iff, beq_iff_eq]
  have hmark : (!s.port.returned || s.choiceDue) = true ↔ (s.port.returned = true → s.choiceDue = true) := by
    cases s.port.returned <;> simp
  simp only [State.flightAgrees, Bool.and_eq_true, and_assoc]
  rw [huntimed, htimer, htimer, hmark]
  constructor
  · rintro ⟨h0, h1, h2, h3, ha, hr, hi, hm⟩
    have hslots := hall.mp ⟨h0, h1, h2, h3⟩
    simp only [State.slotsAgreeAt_iff, forall_and] at hslots
    obtain ⟨ho, hrest, hfly⟩ := hslots
    exact ⟨⟨ho, hrest, hfly, ha, hr, hi⟩, hm⟩
  · rintro ⟨⟨ho, hrest, hfly, ha, hr, hi⟩, hm⟩
    obtain ⟨h0, h1, h2, h3⟩ := hall.mpr fun i => (s.slotsAgreeAt_iff i).mpr ⟨ho i, hrest i, hfly i⟩
    exact ⟨h0, h1, h2, h3, ha, hr, hi, hm⟩

/-! ## Stations and ports on which the law stands -/

/-- A station without a page has none that is not OPEN or does not rest. -/
theorem Station.rests_of_no_slots (h : st.slots = (none, [])) :
    (∀ p, st.openPage = some p → p.state = .opened) ∧ st.Rests := by
  obtain ⟨hopen, hqueue⟩ := Prod.mk.inj h
  simp [Station.Rests, hopen, hqueue]

theorem Station.Extends.rests {a b : Station} (h : a.Extends b) (ha : a.Rests) : b.Rests := by
  obtain ⟨new, hq, hnew⟩ := h.queue
  intro p hp
  rcases List.mem_append.mp (hq ▸ hp) with hp | hp
  · exact ha p hp
  · simp [Page.rests, hnew p hp]

theorem Station.Extends.atImager {a b : Station} {x : Option SlotState} (h : a.Extends b) (ha : a.AtImager x) :
    b.AtImager x := by
  obtain ⟨new, hq, hnew⟩ := h.queue
  obtain ⟨p, rest, hqa, hp, hrest⟩ := ha
  refine ⟨p, rest ++ new, by rw [hq, hqa, List.cons_append], hp, fun q hqm => ?_⟩
  rcases List.mem_append.mp hqm with hold | hadded
  · exact hrest q hold
  · simp [Page.rests, hnew q hadded]

namespace State.FlightFits

/-- The law stands on extended stations under the same stage of the port. -/
theorem extend (h : s.FlightFits) (hs : ∀ j, (s.station j).Extends (u.station j)) (hp : u.port.stage = s.port.stage) :
    u.FlightFits := by
  simp only [Port.stage, Prod.mk.injEq] at hp
  obtain ⟨hstate, hflight, hreply, himaging⟩ := hp
  constructor
  · exact fun j => (hs j).opened (h.opened j)
  · exact fun j hj => (hs j).rests (h.resting j (hflight ▸ hj))
  · exact fun j hj => hstate ▸ (hs j).atImager (h.flying j (hflight ▸ hj))
  · exact fun hn => hstate ▸ h.untimed (hflight ▸ hn)
  · rw [hreply, hstate]
    exact h.replyTimer
  · rw [himaging, hstate]
    exact h.imagingTimer

theorem congr (h : s.FlightFits) (hs : ∀ j, (u.station j).slots = (s.station j).slots)
    (hp : u.port.stage = s.port.stage) : u.FlightFits :=
  h.extend (fun j => .of_slots (hs j)) hp

/-- The law stands where every closed page rests and the port has no page. -/
theorem of_rests (hs : ∀ i, (∀ p, (u.station i).openPage = some p → p.state = .opened) ∧ (u.station i).Rests)
    {x : PortState} (hx : x.Untimed) (hp : u.port.stage = (x, none, false, none)) : u.FlightFits := by
  simp only [Port.stage, Prod.mk.injEq] at hp
  obtain ⟨hstate, hflight, hreply, himaging⟩ := hp
  constructor
  · exact fun i => (hs i).1
  · exact fun i _ => (hs i).2
  · intro i hi
    rw [hflight] at hi
    cases hi
  · exact fun _ => hstate ▸ hx
  · simp [hreply, hstate, hx.1]
  · simp [himaging, hstate, hx.2]

/-- Station `i`'s head is at the imager in the slot state of the port state, and the timers run as in that state. -/
theorem of_head (h : s.FlightFits) (hothers : ∀ j, j ≠ i → (s.station j).Rests)
    (hs : u.stations = (s.setStation i st).stations) (ho : st.openPage = (s.station i).openPage)
    (hst : st.AtImager u.port.state.slotState)
    (hf : u.port.flight = some i) (hr : u.port.replyTimer = true ↔ u.port.state = .awaitingTaken)
    (hi : u.port.imagingTimer.isSome = true ↔ u.port.state = .imaging) : u.FlightFits := by
  have hstation : ∀ j, u.station j = (s.setStation i st).station j := State.station_congr hs
  refine ⟨fun j => ?opened, fun j hj => ?resting, fun j hj => ?flying, fun hn => ?untimed, hr, hi⟩
  case opened =>
    rw [hstation]
    exact State.forall_setStation (P := fun st => ∀ p, st.openPage = some p → p.state = .opened) h.opened
      (ho ▸ h.opened i) j
  case resting =>
    have hne : i ≠ j := fun he => hj (he ▸ hf)
    rw [hstation, State.station_setStation_ne _ _ hne]
    exact hothers j hne.symm
  case flying =>
    obtain rfl : i = j := Option.some.inj (hf.symm.trans hj)
    rwa [hstation, State.station_setStation_same]
  case untimed =>
    rw [hf] at hn
    cases hn

/-! ## The page in flight -/

theorem flight_none (h : s.FlightFits) (hs : s.port.state.slotState = none) : s.port.flight = none := by
  cases hf : s.port.flight with
  | none => rfl
  | some i =>
    obtain ⟨p, rest, -, hp, -⟩ := h.flying i hf
    rw [hs] at hp
    cases hp

theorem others_rest (h : s.FlightFits) (hf : s.port.flight = some i) (j : StationId) (hj : j ≠ i) : (s.station j).Rests :=
  h.resting j fun he => hj (Option.some.inj (he.symm.trans hf))

theorem timers_off (h : s.FlightFits) (hx : s.port.state.Untimed) : s.port.replyTimer = false ∧ s.port.imagingTimer = none := by
  obtain ⟨htaken, himaging⟩ := hx
  refine ⟨Bool.eq_false_iff.mpr fun hr => htaken (h.replyTimer.mp hr), ?_⟩
  rw [← Option.isNone_iff_eq_none, ← Option.isSome_eq_false_iff]
  exact Bool.eq_false_iff.mpr fun hi => himaging (h.imagingTimer.mp hi)

/-- Without a page in flight no timer runs. -/
theorem stage_of_none (h : s.FlightFits) (hf : s.port.flight = none) : s.port.stage = (s.port.state, none, false, none) := by
  obtain ⟨hr, hi⟩ := h.timers_off (h.untimed hf)
  simp [Port.stage, hf, hr, hi]

/-- The port goes from one state without a page in flight to another. -/
theorem move (h : s.FlightFits) (hf : s.port.flight = none) {x : PortState} (hx : x.Untimed) (hs : u.stations = s.stations)
    (hp : u.port.stage = (x, s.port.flight, s.port.replyTimer, s.port.imagingTimer)) : u.FlightFits := by
  obtain ⟨hr, hi⟩ := h.timers_off (h.untimed hf)
  rw [hf, hr, hi] at hp
  refine of_rests (fun i => ?_) hx hp
  rw [State.station_congr hs]
  exact ⟨h.opened i, h.resting i (by rw [hf]; exact nofun)⟩

/-- The page in flight leaves the imager: its owner's closed pages rest, and the port clears. -/
theorem clear (h : s.FlightFits) (hf : s.port.flight = some i) (ho : st.openPage = (s.station i).openPage) (hst : st.Rests)
    {x : PortState} (hx : x.Untimed) (hs : u.stations = (s.setStation i st).stations)
    (hp : u.port.stage = (x, none, false, none)) : u.FlightFits := by
  refine of_rests (fun j => ?_) hx hp
  rw [State.station_congr hs]
  by_cases hj : i = j
  · subst hj
    rw [State.station_setStation_same]
    exact ⟨ho ▸ h.opened i, hst⟩
  · rw [State.station_setStation_ne _ _ hj]
    exact ⟨h.opened j, h.others_rest hf j (Ne.symm hj)⟩

/-- The owner's queue behind the page in flight rests. -/
theorem flightPage_rest (h : s.FlightFits) {p : Page} (hf : s.flightPage = some (i, p)) :
    s.port.flight = some i ∧ ∃ rest, (s.station i).queue = p :: rest ∧ some p.state = s.port.state.slotState ∧
      ∀ q ∈ rest, q.rests = true := by
  obtain ⟨hflight, hhead⟩ := State.flightPage_eq_some.mp hf
  obtain ⟨q, rest, hq, hstate, hrest⟩ := h.flying i hflight
  rw [hq] at hhead
  obtain rfl : q = p := Option.some.inj hhead
  exact ⟨hflight, rest, hq, hstate, hrest⟩

theorem flightPage_none (h : s.FlightFits) (hf : s.flightPage = none) : s.port.flight = none := by
  cases hflight : s.port.flight with
  | none => rfl
  | some i =>
    obtain ⟨p, rest, hq, -, -⟩ := h.flying i hflight
    rw [State.flightPage_of_queue hflight hq] at hf
    cases hf

end State.FlightFits

/-! ## The operations of the port -/

theorem Station.spoilHead_slots (table : Dispositions) (timeout : Bool) {p : Page} {rest : List Page}
    (hq : st.queue = p :: rest) : (st.spoilHead table timeout p).slots = (st.openPage, p.spoil :: rest) := by
  unfold Station.spoilHead
  simp only [Station.setHead_of_queue _ hq]
  split <;> split <;> simp [Station.slots]

/-- The flight fits, and no reply has just made a choice due. -/
structure State.Unmarked (s : State) : Prop where
  fits : s.FlightFits
  mark : s.port.returned = false

theorem State.Unmarked.law (h : s.Unmarked) : s.FlightLaw :=
  ⟨h.fits, fun hm => by rw [h.mark] at hm; cases hm⟩

/-- The law looks at the slots, the stage of the port and the mark alone. -/
theorem State.Unmarked.congr (h : s.Unmarked) (hs : ∀ j, (u.station j).slots = (s.station j).slots)
    (hp : u.port.stage = s.port.stage) (hm : u.port.returned = s.port.returned) : u.Unmarked :=
  ⟨h.fits.congr hs hp, hm.trans h.mark⟩

theorem State.Unmarked.congr_stations (h : s.Unmarked) (hs : u.stations = s.stations) (hp : u.port.stage = s.port.stage)
    (hm : u.port.returned = s.port.returned) : u.Unmarked :=
  h.congr (fun j => by rw [State.station_congr hs]) hp hm

namespace State.Unmarked

/-- A spoil leaves the page SPOILED at its owner's head and the port without a page (R161, R162). -/
theorem spoilFlight (h : s.Unmarked) (timeout : Bool) {x : PortState} (hx : x.Untimed) : (s.spoilFlight timeout x).Unmarked := by
  cases hf : s.flightPage with
  | none =>
    rw [State.spoilFlight_none timeout x hf]
    have hflight := h.fits.flightPage_none hf
    refine ⟨h.fits.move hflight hx rfl ?_, h.mark⟩
    obtain ⟨hr, hi⟩ := h.fits.timers_off (h.fits.untimed hflight)
    rw [hflight, hr, hi]
    rfl
  | some y =>
    obtain ⟨i, p⟩ := y
    obtain ⟨hflight, rest, hq, -, hrest⟩ := h.fits.flightPage_rest hf
    obtain ⟨hopen, hqueue⟩ := Prod.mk.inj (Station.spoilHead_slots s.library.dispositions timeout hq)
    rw [State.spoilFlight_some timeout x hf]
    refine ⟨h.fits.clear hflight hopen ?_ hx rfl rfl, h.mark⟩
    intro q hqm
    rcases List.mem_cons.mp (hqueue ▸ hqm) with rfl | hqm
    · rfl
    · exact hrest q hqm

/-- The port moves between states without a page in flight. -/
theorem move (h : s.Unmarked) (hf : s.port.flight = none) {x : PortState} (hx : x.Untimed) (hs : u.stations = s.stations)
    (hp : u.port.stage = (x, s.port.flight, s.port.replyTimer, s.port.imagingTimer))
    (hm : u.port.returned = s.port.returned) : u.Unmarked :=
  ⟨h.fits.move hf hx hs hp, hm.trans h.mark⟩

end State.Unmarked

theorem PortState.untimed_offline : PortState.Untimed .offline := ⟨nofun, nofun⟩
theorem PortState.untimed_sending : PortState.Untimed .sending := ⟨nofun, nofun⟩
theorem PortState.untimed_idle : PortState.Untimed .idle := ⟨nofun, nofun⟩
theorem PortState.untimed_faulted : PortState.Untimed .faulted := ⟨nofun, nofun⟩

theorem Port.afterVoid_untimed (p : Port) : p.afterVoid.Untimed := by
  unfold Port.afterVoid
  split
  · exact PortState.untimed_offline
  · split
    · exact PortState.untimed_faulted
    · exact PortState.untimed_idle

theorem State.FlightFits.flight_none_of (h : s.FlightFits) {x : PortState} (hs : s.port.state = x)
    (hx : x.slotState = none) : s.port.flight = none :=
  h.flight_none (hs ▸ hx)

namespace State.Unmarked

/-! ### Lines (R151 to R154) -/

theorem readyMove (h : s.Unmarked) (b : Bool) : (s.readyMove b).Unmarked := by
  unfold State.readyMove
  split
  · rename_i hs
    refine h.move (h.fits.flight_none_of hs rfl) ?_ rfl rfl rfl
    split
    · exact PortState.untimed_faulted
    · exact PortState.untimed_idle
  · rename_i hs
    exact h.move (h.fits.flight_none_of hs rfl) PortState.untimed_offline rfl rfl rfl
  · rename_i hs
    exact h.move (h.fits.flight_none_of hs rfl) PortState.untimed_offline rfl rfl rfl
  · split
    · exact h.spoilFlight _ PortState.untimed_offline
    · exact h
  · exact h.spoilFlight _ PortState.untimed_offline
  · exact h.spoilFlight _ PortState.untimed_offline
  · exact h

theorem faultMove (h : s.Unmarked) (b : Bool) : (s.faultMove b).Unmarked := by
  unfold State.faultMove
  split
  · rename_i hs
    exact h.move (h.fits.flight_none_of hs rfl) PortState.untimed_faulted rfl rfl rfl
  · rename_i hs
    exact h.move (h.fits.flight_none_of hs rfl) PortState.untimed_idle rfl rfl rfl
  · split
    · exact h.spoilFlight _ PortState.untimed_faulted
    · exact h
  · exact h.spoilFlight _ PortState.untimed_faulted
  · exact h.spoilFlight _ PortState.untimed_faulted
  · exact h

theorem lineEffect (h : s.Unmarked) (l : Line) (b : Bool) : (s.lineEffect l b).Unmarked := by
  cases l with
  | ready => exact h.readyMove b
  | fault => exact h.faultMove b
  | cover => exact h
  | mediaLow => exact h
  | hold => exact h.congr (fun j => by simp [State.lineEffect]) rfl rfl

theorem setDebounced (h : s.Unmarked) (l : Line) (b : Bool) : (s.setDebounced l b).Unmarked := by
  unfold State.setDebounced
  split
  · exact h
  · refine lineEffect ?_ l b
    exact h.congr_stations rfl rfl rfl

theorem setRaw (h : s.Unmarked) (l : Line) (b : Bool) : (s.setRaw l b).Unmarked := h.congr_stations rfl rfl rfl

theorem takeRaw (h : s.Unmarked) (l : Line) : (s.takeRaw l).Unmarked := by
  unfold State.takeRaw
  split
  · exact h.setDebounced l _
  · exact h

theorem debouncedEvent (h : s.Unmarked) (l : Line) (b : Bool) : (s.debouncedEvent l b).Unmarked := by
  unfold State.debouncedEvent
  split
  · exact h
  · exact (h.setRaw l b).setDebounced l b

theorem applySetup (h : s.Unmarked) (x : ImagerSetup) : (s.applySetup x).Unmarked := by
  have hset : State.Unmarked { s with port := { s.port with setup := x } } := h.congr_stations rfl rfl rfl
  simp only [State.applySetup, List.foldl_cons, List.foldl_nil]
  exact ((((hset.takeRaw _).takeRaw _).takeRaw _).takeRaw _).takeRaw _

/-! ### Sending and timers (R142, R156, R160) -/

theorem pageCloseSent (h : s.Unmarked) : s.pageCloseSent.Unmarked := by
  unfold State.pageCloseSent
  split
  · rename_i hs
    split
    · exact h
    · rename_i i p hf
      obtain ⟨hflight, rest, hq, -, hrest⟩ := h.fits.flightPage_rest hf
      have hi := (h.fits.timers_off (hs ▸ PortState.untimed_sending)).2
      rw [Station.setHead_of_queue _ hq]
      exact ⟨h.fits.of_head (h.fits.others_rest hflight) rfl rfl ⟨_, rest, rfl, rfl, hrest⟩ hflight (by simp)
        (by simp [hi]), h.mark⟩
  · exact h

theorem pageVoidSent (h : s.Unmarked) : s.pageVoidSent.Unmarked := by
  unfold State.pageVoidSent
  split
  · rename_i hs
    exact h.move hs.2 s.port.afterVoid_untimed rfl rfl rfl
  · exact h

theorem portTimeout (h : s.Unmarked) (b : Bool) : (s.portTimeout b).Unmarked := by
  unfold State.portTimeout
  split
  · exact h.spoilFlight _ PortState.untimed_offline
  · exact h

/-! ### Replies (R157, R158, R163) -/

theorem strayReply (h : s.Unmarked) : s.strayReply.Unmarked := h.congr_stations rfl rfl rfl

theorem replyTaken (h : s.Unmarked) : s.replyTaken.Unmarked := by
  unfold State.replyTaken
  split
  · rename_i hs
    have hne : s.port.flight ≠ none := fun hn => (h.fits.untimed hn).1 hs
    obtain ⟨i, hflight⟩ := Option.ne_none_iff_exists'.mp hne
    have hhead := h.fits.flying i hflight
    rw [hs] at hhead
    exact ⟨h.fits.of_head (st := s.station i) (h.fits.others_rest hflight) (by rw [State.setStation_station]) rfl hhead
      hflight (by simp) (by simp), h.mark⟩
  · exact h.strayReply

end State.Unmarked

/-- A choice is marked as due by a reply only if it is due. -/
theorem State.FlightFits.markReturn (h : s.FlightFits) : s.markReturn.FlightLaw :=
  ⟨h.congr (fun _ => rfl) rfl, fun hm => hm⟩

namespace State.Unmarked

/-- The owner's head leaves the queue, and the port returns to IDLE (R144, R145). -/
theorem returnWith (h : s.Unmarked) {p : Page} (hf : s.flightPage = some (i, p))
    (hst : st.slots = (s.station i).freeHead.slots) : (s.returnWith i st).FlightLaw := by
  obtain ⟨hflight, rest, hq, -, hrest⟩ := h.fits.flightPage_rest hf
  obtain ⟨hopen, hqueue⟩ := Prod.mk.inj hst
  have hrests : st.Rests := by
    intro q hqm
    rw [hqueue, Station.freeHead, hq] at hqm
    exact hrest q hqm
  exact State.FlightFits.markReturn (h.fits.clear hflight hopen hrests PortState.untimed_idle rfl rfl)

theorem replyRefused (h : s.Unmarked) : s.replyRefused.FlightLaw := by
  unfold State.replyRefused
  split
  · split
    · exact h.strayReply.law
    · rename_i hf
      exact h.returnWith hf ((Station.drainTest_slots _).trans (Station.raise_slots ..))
  · exact h.strayReply.law

theorem replyImaged (h : s.Unmarked) (a : Byte) (n : Half) : (s.replyImaged a n).FlightLaw := by
  unfold State.replyImaged
  split
  · exact h.strayReply.law
  · rename_i hm
    obtain ⟨-, hf, -, -⟩ := State.matching_eq_some.mp hm
    exact h.returnWith hf (Station.drainTest_slots _)

theorem replySpoiled (h : s.Unmarked) (a : Byte) (n : Half) : (s.replySpoiled a n).FlightLaw := by
  unfold State.replySpoiled
  split
  · exact h.strayReply.law
  · exact (h.spoilFlight false PortState.untimed_idle).fits.markReturn

theorem checkedReply (h : s.Unmarked) (sum : Byte) {take : State → State} (ht : (take s).FlightLaw) :
    (s.checkedReply sum take).FlightLaw := by
  unfold State.checkedReply
  split
  · exact ht
  · exact h.strayReply.law

end State.Unmarked

/-! ### The choice of the arbiter (R140, R141) -/

/-- A choice takes a resting head to the imager from a port without a page. -/
theorem State.FlightLaw.arbitrate (h : s.FlightLaw) : s.arbitrate.Unmarked := by
  obtain ⟨hfits, hmark⟩ := h
  cases hd : s.choiceDue with
  | false =>
    rw [State.arbitrate_of_not_due s hd]
    refine ⟨hfits, Bool.eq_false_iff.mpr fun hm => ?_⟩
    rw [hmark hm] at hd
    cases hd
  | true =>
    rw [State.choiceDue, Bool.and_eq_true, Option.isSome_iff_exists] at hd
    obtain ⟨hc, i, hn⟩ := hd
    obtain ⟨p, rest, hq, -⟩ := (Station.headReady_iff _).mp (State.nextServed_ready hn)
    have hidle := ((Port.choosing_iff _).mp hc).1
    have hflight := hfits.flight_none_of hidle rfl
    have hall : ∀ j, (s.station j).Rests := fun j => hfits.resting j (by rw [hflight]; exact nofun)
    have hrest : ∀ q ∈ rest, q.rests = true := fun q hqm => hall i q (hq ▸ List.mem_cons_of_mem p hqm)
    obtain ⟨hr, hi⟩ := hfits.timers_off (hfits.untimed hflight)
    rw [State.arbitrate_of_served hc hn hq]
    exact ⟨hfits.of_head (fun j _ => hall j) rfl rfl ⟨_, rest, rfl, rfl, hrest⟩ rfl (by simp [hr]) (by simp [hi]), rfl⟩

theorem State.FlightLaw.beforeLine (h : s.FlightLaw) (l : Line) (b : Bool) : (s.beforeLine l b).Unmarked := by
  rcases s.beforeLine_cases l b with he | ⟨-, -, -, -, he⟩ <;> rw [he]
  · exact h.arbitrate
  · exact ⟨h.1.congr (fun _ => rfl) rfl, rfl⟩

theorem State.FlightLaw.rawChange (h : s.FlightLaw) (l : Line) (b : Bool) : (s.rawChange l b).Unmarked := by
  unfold State.rawChange
  split
  · exact ((h.beforeLine l b).setRaw l b).takeRaw l
  · exact (h.arbitrate.setRaw l b).takeRaw l

theorem State.FlightLaw.readImagerBytes (bytes : List Byte) (h : s.FlightLaw) : (readImagerBytes bytes s).FlightLaw := by
  fun_induction Sys2Proof.Machine.readImagerBytes bytes s with
  | case1 => exact h.arbitrate.law
  | case2 s c rest ih => exact ih (h.arbitrate.checkedReply _ h.arbitrate.replyTaken.law)
  | case4 s r c rest _ ih => exact ih (h.arbitrate.checkedReply _ h.arbitrate.replyRefused)
  | case6 s i p1 p0 c rest _ _ ih => exact ih (h.arbitrate.checkedReply _ (h.arbitrate.replyImaged _ _))
  | case8 s i p1 p0 c rest _ _ _ ih => exact ih (h.arbitrate.checkedReply _ (h.arbitrate.replySpoiled _ _))
  | _ => exact h.arbitrate.strayReply.law

/-! ### DEVICE CLEAR and POWER_ON (R26, R27, R156, R165) -/

/-- DEVICE CLEAR leaves the port without a page in flight (R165). -/
theorem State.FlightFits.deviceClear_stage (h : s.FlightFits) (void : List (List Byte)) :
    ∃ x : PortState, x.Untimed ∧ (s.port.deviceClear void).stage = (x, none, false, none) := by
  have stays : ∀ {x : PortState}, s.port.state = x → s.port.flight = none →
      ∃ x : PortState, x.Untimed ∧ s.port.stage = (x, none, false, none) := fun _ hf =>
    ⟨s.port.state, h.untimed hf, h.stage_of_none hf⟩
  unfold Port.deviceClear
  split
  · rename_i hs
    obtain ⟨hr, hi⟩ := h.timers_off (hs ▸ PortState.untimed_sending)
    split
    · exact ⟨.sending, PortState.untimed_sending, by simp [Port.stage, hs, hr, hi]⟩
    · rename_i hf
      exact stays hs (by simpa using hf)
  · exact ⟨.idle, PortState.untimed_idle, rfl⟩
  · exact ⟨.idle, PortState.untimed_idle, rfl⟩
  · rename_i hsending htaken himaging
    refine stays rfl (h.flight_none ?_)
    cases hs : s.port.state with
    | sending => exact absurd hs hsending
    | awaitingTaken => exact absurd hs htaken
    | imaging => exact absurd hs himaging
    | _ => rfl

theorem Port.deviceClear_returned (void : List (List Byte)) (p : Port) : (p.deviceClear void).returned = p.returned := by
  unfold Port.deviceClear
  split
  · split <;> rfl
  all_goals rfl

theorem State.Unmarked.deviceClear (h : s.Unmarked) : s.deviceClear.Unmarked := by
  have hstation : ∀ j, s.deviceClear.station j = { (s.station j).reset s.port.debounced.hold with queue := [] } := fun j =>
    State.station_mapStations s j fun st => { st.reset s.port.debounced.hold with queue := [] }
  obtain ⟨x, hx, hp⟩ := h.fits.deviceClear_stage
    (match s.flightPage with
     | none => []
     | some (i, p) => [p.voidRecord i])
  refine ⟨State.FlightFits.of_rests (fun j => ?_) hx hp, (Port.deviceClear_returned _ _).trans h.mark⟩
  have hopen : ((s.station j).reset s.port.debounced.hold).openPage = none := congrArg Prod.fst (Station.reset_slots ..)
  rw [hstation]
  exact Station.rests_of_no_slots (Prod.ext hopen rfl)

theorem State.Unmarked.powerOn (s : State) :
    State.Unmarked { State.reset with port := Port.powerOn s.port.raw, pending := s.pending } := by
  refine ⟨State.FlightFits.of_rests (fun j => ?_) PortState.untimed_offline rfl, rfl⟩
  have hstation : State.station { State.reset with port := Port.powerOn s.port.raw, pending := s.pending } j =
      Station.powerOn := State.reset_station j
  rw [hstation]
  exact Station.rests_of_no_slots rfl

/-! ### Orders (R168, R170) -/

namespace State.Unmarked

theorem ordered (h : s.Unmarked) (ho : s.Ordered u) : u.Unmarked := by
  rcases ho with he | ⟨x, hx⟩ | hd
  · exact ⟨h.fits.extend he.station (by rw [he.port]), by rw [he.port, h.mark]⟩
  · exact hx ▸ h.applySetup x
  · exact hd ▸ h.deviceClear

theorem received (h : s.Unmarked) (hr : s.Received u) : u.Unmarked := by
  obtain ⟨r, b, rfl | ⟨l, data, sum, rfl⟩⟩ := hr
  · exact h.congr_stations rfl rfl rfl
  · have hset : (s.setReceive r b).Unmarked := h.congr_stations rfl rfl rfl
    obtain ⟨v, a, hv, hcase⟩ := (s.setReceive r b).answerFrame_cases l data sum
    have hleft : v.Unmarked := by
      rcases hcase with rfl | rfl
      · exact hset
      · exact hset.ordered (carryOut_ordered l data _)
    rw [hv]
    exact hleft.congr_stations rfl rfl rfl

/-! ### The other events -/

theorem linkReset (h : s.Unmarked) : s.linkReset.Unmarked :=
  h.congr (fun j => by simp [State.linkReset, Station.slots]) rfl rfl

theorem linkRelease (h : s.Unmarked) : s.linkRelease.Unmarked := by
  unfold State.linkRelease
  split
  · exact h.congr_stations rfl rfl rfl
  · exact h

theorem readStatus (h : s.Unmarked) : s.readStatus.Unmarked := by
  unfold State.readStatus
  split
  · exact h.congr_stations rfl rfl rfl
  · exact h.congr_stations rfl rfl rfl
  · exact h

theorem interByteExpiry (h : s.Unmarked) : s.interByteExpiry.Unmarked := by
  unfold State.interByteExpiry
  split
  · split
    · exact h.congr_stations rfl rfl rfl
    · exact h.congr_stations rfl rfl rfl
    · exact h
  · exact h

theorem idleExpiry (h : s.Unmarked) (i : StationId) : (s.idleExpiry i).Unmarked := by
  have hslots : ((s.station i).idleExpiry s.library.dispositions).slots = (s.station i).slots := by
    unfold Station.idleExpiry
    split
    · exact Station.raise_slots ..
    · rfl
  have hextends := State.Extends.setStation (.of_slots hslots)
  exact h.ordered hextends.ordered

end State.Unmarked

/-! ## Every command -/

theorem exec_flightLaw (c : Instr) (h : s.FlightLaw) : ∃ t, exec c s = .next t ∧ t.FlightLaw := by
  have ha := h.arbitrate
  cases c with
  | powerOn => exact ⟨_, rfl, (State.Unmarked.powerOn s).law⟩
  | linkReset => exact ⟨_, rfl, ha.linkReset.law⟩
  | linkResetRelease => exact ⟨_, rfl, ha.linkRelease.law⟩
  | endingStatusRead => exact ⟨_, rfl, ha.readStatus.law⟩
  | interByteTimerExpiry => exact ⟨_, rfl, ha.interByteExpiry.law⟩
  | byteTaken b => exact ⟨_, rfl, (ha.received (State.takeByte_received b)).law⟩
  | idleTimerExpiry i => exact ⟨_, rfl, (ha.idleExpiry i).law⟩
  | rawLevelChange l b => exact ⟨_, rfl, (h.rawChange l b).law⟩
  | debouncedReadyFall => exact ⟨_, rfl, ((h.beforeLine _ _).debouncedEvent _ _).law⟩
  | debouncedFaultRise => exact ⟨_, rfl, ((h.beforeLine _ _).debouncedEvent _ _).law⟩
  | debouncedReadyRise => exact ⟨_, rfl, (ha.debouncedEvent _ _).law⟩
  | debouncedFaultFall => exact ⟨_, rfl, (ha.debouncedEvent _ _).law⟩
  | debouncedCoverChange b => exact ⟨_, rfl, (ha.debouncedEvent _ _).law⟩
  | debouncedMediaLowChange b => exact ⟨_, rfl, (ha.debouncedEvent _ _).law⟩
  | holdSwitchOn => exact ⟨_, rfl, (ha.debouncedEvent _ _).law⟩
  | holdSwitchOff => exact ⟨_, rfl, (ha.debouncedEvent _ _).law⟩
  | arbiterChoice => exact ⟨_, rfl, ha.law⟩
  | pageCloseSent => exact ⟨_, rfl, ha.pageCloseSent.law⟩
  | pageVoidSent => exact ⟨_, rfl, ha.pageVoidSent.law⟩
  | taken sum => exact ⟨_, rfl, ha.checkedReply sum ha.replyTaken.law⟩
  | refused reason sum => exact ⟨_, rfl, ha.checkedReply sum ha.replyRefused⟩
  | imaged station page sum => exact ⟨_, rfl, ha.checkedReply sum (ha.replyImaged station page)⟩
  | spoiled station page sum => exact ⟨_, rfl, ha.checkedReply sum (ha.replySpoiled station page)⟩
  | replyTimerExpiry => exact ⟨_, rfl, (ha.portTimeout _).law⟩
  | imagingTimerExpiry => exact ⟨_, rfl, (ha.portTimeout _).law⟩
  | imagerLinkQuietTest bytes => exact ⟨_, rfl, h.readImagerBytes bytes⟩
  | _ => exact ⟨_, rfl, (ha.received (State.receiveOrder_received _ _ _)).law⟩

/-- Settles O9: each command finds a due choice made, so that no mark stands when it acts, and keeps the flight. -/
theorem stepKeepsFlight : Obligations.StepKeepsFlight := by
  intro s t hs ht
  rw [State.flightLaw_iff] at hs ⊢
  unfold step at ht
  split at ht
  · cases ht
    exact hs
  · rename_i c rest _
    have hrest : (s.setPending rest).FlightLaw := ⟨hs.1.congr (fun _ => rfl) rfl, hs.2⟩
    obtain ⟨u, hu, hlaw⟩ := exec_flightLaw c hrest
    rw [hu] at ht
    cases ht
    exact hlaw

end Sys2Proof.Machine
end

section
/-! SUPPORT. Replies that the port cannot take (R163, R184), the quiet test's bytes, and the timers of the port (R160). -/

namespace Sys2Proof.Machine

variable {s : State} {i : StationId} {p : Page} {rest : List Page}

/-! ## Spoils as the statements write them (R162) -/

/-- A spoil at the head of its owner's queue, the port left without a page. -/
theorem State.spoilFlight_of_queue (timeout : Bool) (dest : PortState) (hf : s.port.flight = some i)
    (hq : (s.station i).queue = p :: rest) :
    s.spoilFlight timeout dest = (s.setStation i (s.spoiledOwner i timeout p rest)).portAt dest := by
  rw [State.spoilFlight_some _ _ (State.flightPage_of_queue hf hq), State.spoilHead_eq timeout hq]
  rfl

/-! ## The timers of the port (R160) -/

theorem State.portTimeout_of_running (hf : s.port.flight = some i) (hq : (s.station i).queue = p :: rest) :
    s.portTimeout true = (s.setStation i (s.spoiledOwner i true p rest)).portAt .offline :=
  State.spoilFlight_of_queue true .offline hf hq

theorem exec_replyTimerExpiry (hd : s.choiceDue = false) :
    exec .replyTimerExpiry s = .next (s.portTimeout s.port.replyTimer) := by
  have he : exec .replyTimerExpiry s = .next (s.arbitrate.portTimeout s.arbitrate.port.replyTimer) := rfl
  rw [he, State.arbitrate_of_not_due s hd]

theorem exec_imagingTimerExpiry (hd : s.choiceDue = false) :
    exec .imagingTimerExpiry s = .next (s.portTimeout s.port.imagingTimer.isSome) := by
  have he : exec .imagingTimerExpiry s = .next (s.arbitrate.portTimeout s.arbitrate.port.imagingTimer.isSome) := rfl
  rw [he, State.arbitrate_of_not_due s hd]

/-- Settles O49: a timer that runs spoils the head of the queue of the station whose page is in flight. -/
theorem timersSpoilThePage : Obligations.TimersSpoilThePage := by
  intro s hd
  rw [exec_replyTimerExpiry hd, exec_imagingTimerExpiry hd]
  refine ⟨fun hoff => ?_, fun hoff => ?_, fun i p rest hf hq => ⟨fun _ hon => ?_, fun _ hon => ?_⟩⟩
  · rw [hoff]
    rfl
  · rw [hoff]
    rfl
  · rw [hon, State.portTimeout_of_running hf hq]
  · rw [hon, State.portTimeout_of_running hf hq]

/-! ## Replies that the port cannot take (R163) -/

theorem State.replyRefused_stray (h : s.port.state ≠ .awaitingTaken) : s.replyRefused = s.strayReply := if_neg h

variable {station reason sum : Byte} {page : Half}

/-- No page is named outside IMAGING. -/
theorem State.matching_of_state (h : s.port.state ≠ .imaging) : s.matching station page = none := if_neg h

/-- A reply that names another station or page than those in flight names no page. -/
theorem State.matching_of_other (hf : s.port.flight = some i) (hq : (s.station i).queue = p :: rest)
    (hne : station ≠ byteOf i.val ∨ page ≠ p.page) : s.matching station page = none := by
  rw [Option.eq_none_iff_forall_ne_some]
  rintro ⟨j, q⟩ hm
  obtain ⟨-, hflight, hstation, hpage⟩ := State.matching_eq_some.mp hm
  rw [State.flightPage_of_queue hf hq] at hflight
  cases hflight
  rcases hne with hne | hne
  · exact hne hstation.symm
  · exact hne hpage.symm

theorem State.replyImaged_stray (h : s.matching station page = none) : s.replyImaged station page = s.strayReply := by
  rw [State.replyImaged, h]

theorem State.replySpoiled_stray (h : s.matching station page = none) : s.replySpoiled station page = s.strayReply := by
  rw [State.replySpoiled, h]

/-- A reply that comes where no choice is due is checked on the state as it stands. -/
theorem exec_reply (hd : s.choiceDue = false) :
    exec (.taken sum) s = .next (s.checkedReply sum State.replyTaken) ∧
    exec (.refused reason sum) s = .next (s.checkedReply sum State.replyRefused) ∧
    exec (.imaged station page sum) s = .next (s.checkedReply sum (State.replyImaged station page)) ∧
    exec (.spoiled station page sum) s = .next (s.checkedReply sum (State.replySpoiled station page)) := by
  have after : ∀ take : State → State, Host.Outcome.next (φ := Fault) (ρ := Refusal) (s.arbitrate.checkedReply sum take) =
      .next (s.checkedReply sum take) := fun take => by rw [State.arbitrate_of_not_due s hd]
  exact ⟨after _, after _, after _, after _⟩

/-- IMAGED and SPOILED that name no page at the imager are strays. -/
theorem exec_unmatched (hd : s.choiceDue = false) (hm : s.matching station page = none) :
    exec (.imaged station page 0) s = .next s.strayReply ∧ exec (.spoiled station page 0) s = .next s.strayReply := by
  obtain ⟨-, -, himaged, hspoiled⟩ := exec_reply (sum := 0) (reason := 0) (station := station) (page := page) hd
  rw [himaged, hspoiled, State.checkedReply_right, State.checkedReply_right, State.replyImaged_stray hm,
    State.replySpoiled_stray hm]
  exact ⟨rfl, rfl⟩

/-! ## The quiet test (R184) -/

/-- The bytes of a reply after its type byte, the check byte included (R184); none for an unknown type. -/
def replyTail (t : Byte) : Option Nat :=
  if t = 0x81 then some 1
  else if t = 0x82 then some 2
  else if t = 0x83 then some 4
  else if t = 0x84 then some 4
  else none

theorem replyTail_unknown {t : Byte} (h : t ∉ [(0x81 : Byte), 0x82, 0x83, 0x84]) : replyTail t = none := by
  simp only [List.mem_cons, List.not_mem_nil, or_false, not_or] at h
  obtain ⟨h1, h2, h3, h4⟩ := h
  simp only [replyTail, h1, h2, h3, h4, if_false]

/-- Bytes that begin with an unknown type, or with a reply cut short, are one stray. -/
theorem readImagerBytes_stray {t : Byte} {bytes : List Byte} (h : ∀ n, replyTail t = some n → bytes.length < n) :
    readImagerBytes (t :: bytes) s = s.arbitrate.strayReply := by
  unfold replyTail at h
  unfold readImagerBytes
  split_ifs at h ⊢
  case neg => rfl
  all_goals
    have hcut := h _ rfl
    split
    · simp only [List.length_cons] at hcut
      omega
    · rfl

/-- A whole reply at the head of the bytes is that reply, then the test of the bytes after it. -/
theorem exec_quietTest_whole (p1 p0 c : Byte) (bytes : List Byte) :
    exec (.imagerLinkQuietTest (0x81 :: c :: bytes)) s = execAll [.taken (0x81 + c), .imagerLinkQuietTest bytes] s ∧
    exec (.imagerLinkQuietTest (0x82 :: reason :: c :: bytes)) s =
      execAll [.refused reason (0x82 + reason + c), .imagerLinkQuietTest bytes] s ∧
    exec (.imagerLinkQuietTest (0x83 :: station :: p1 :: p0 :: c :: bytes)) s =
      execAll [.imaged station (p1 ++ p0) (0x83 + station + p1 + p0 + c), .imagerLinkQuietTest bytes] s ∧
    exec (.imagerLinkQuietTest (0x84 :: station :: p1 :: p0 :: c :: bytes)) s =
      execAll [.spoiled station (p1 ++ p0) (0x84 + station + p1 + p0 + c), .imagerLinkQuietTest bytes] s := by
  have read (bs : List Byte) : exec (.imagerLinkQuietTest bs) s = .next (readImagerBytes bs s) := rfl
  have h21 : (0x82 : Byte) ≠ 0x81 := by decide
  have h31 : (0x83 : Byte) ≠ 0x81 ∧ (0x83 : Byte) ≠ 0x82 := by decide
  have h41 : (0x84 : Byte) ≠ 0x81 ∧ (0x84 : Byte) ≠ 0x82 ∧ (0x84 : Byte) ≠ 0x83 := by decide
  simp only [read, readImagerBytes, h21, h31, h41, if_true, if_false]
  exact ⟨rfl, rfl, rfl, rfl⟩

/-- Such bytes at the quiet test, where no choice is due, change the stray count alone. -/
theorem exec_quietTest_stray {t : Byte} {bytes : List Byte} (hd : s.choiceDue = false)
    (h : ∀ n, replyTail t = some n → bytes.length < n) : exec (.imagerLinkQuietTest (t :: bytes)) s = .next s.strayReply := by
  have he : exec (.imagerLinkQuietTest (t :: bytes)) s = .next (readImagerBytes (t :: bytes) s) := rfl
  rw [he, readImagerBytes_stray h, State.arbitrate_of_not_due s hd]

/-- A reply of the quiet test that is cut short, by its type. -/
theorem exec_quietTest_cut (hd : s.choiceDue = false) (t : Byte) (bytes : List Byte)
    (h : t = 0x81 ∧ bytes = [] ∨ t = 0x82 ∧ bytes.length ≤ 1 ∨ (t = 0x83 ∨ t = 0x84) ∧ bytes.length ≤ 3) :
    exec (.imagerLinkQuietTest (t :: bytes)) s = .next s.strayReply := by
  refine exec_quietTest_stray hd fun n hn => ?_
  rcases h with ⟨rfl, rfl⟩ | ⟨rfl, hlen⟩ | ⟨rfl | rfl, hlen⟩ <;> cases hn
  · exact Nat.one_pos
  · exact Nat.lt_succ_of_le hlen
  · exact Nat.lt_succ_of_le hlen
  · exact Nat.lt_succ_of_le hlen

/-- Settles O48: replies by the reason they are strays, and the quiet test by its first byte. -/
theorem strayRepliesAreCounted : Obligations.StrayRepliesAreCounted := by
  intro s reason station sum page hd stray
  have unmatched (hm : s.matching station page = none) := exec_unmatched hd hm
  have cut := exec_quietTest_cut hd
  obtain ⟨htaken, hrefused, -, -⟩ := exec_reply (sum := 0) (reason := reason) (station := station) (page := page) hd
  refine ⟨fun hsum => ?wrong, fun hs => ?unasked, fun hs => unmatched (State.matching_of_state hs),
    fun i p rest hf hq hne => unmatched (State.matching_of_other hf hq hne), ?nothing,
    fun b bytes hb => exec_quietTest_stray hd (by simp [replyTail_unknown hb]), cut _ _ (.inl ⟨rfl, rfl⟩),
    cut _ _ (.inr (.inl ⟨rfl, le_rfl⟩)), cut _ _ (.inr (.inr ⟨.inl rfl, by simp⟩)),
    cut _ _ (.inr (.inr ⟨.inr rfl, by simp⟩)), cut, exec_quietTest_whole⟩
  case wrong =>
    obtain ⟨h1, h2, h3, h4⟩ := exec_reply (sum := sum) (reason := reason) (station := station) (page := page) hd
    rw [h1, h2, h3, h4]
    simp only [State.checkedReply_wrong _ hsum]
    exact ⟨rfl, rfl, rfl, rfl⟩
  case unasked =>
    rw [htaken, hrefused, State.checkedReply_right, State.checkedReply_right, State.replyTaken_stray hs,
      State.replyRefused_stray hs]
    exact ⟨rfl, rfl⟩
  case nothing => exact congrArg Host.Outcome.next (State.arbitrate_of_not_due s hd)

end Sys2Proof.Machine
end

section
/-! SUPPORT. Changes of the five lines as the statements write them (R151 to R154, R161): a debounced change is the line at its new
level, then what the change does to the port or the stations. -/

namespace Sys2Proof.Machine

variable {s : State} {l : Line} {b : Bool} {i : StationId} {p : Page} {rest : List Page}

/-! ## One value per line -/

@[simp] theorem PerLine.put_get {α : Type} (v : PerLine α) (l : Line) : v.put l (v.get l) = v := by cases l <;> rfl

theorem PerLine.put_of_get {α : Type} {v : PerLine α} {x : α} (h : v.get l = x) : v.put l x = v := by
  rw [← h, PerLine.put_get]

/-! ## A debounced change -/

/-- A debounced change is the line at its new level, then the effect of the change. -/
theorem State.debouncedEvent_of_change (h : s.port.debounced.get l ≠ b) :
    s.debouncedEvent l b = (s.lineAt l b).lineEffect l b := by
  have hraw : (s.setRaw l b).port.debounced.get l ≠ b := h
  rw [State.debouncedEvent, if_neg h, State.setDebounced, if_neg hraw]
  rfl

/-- A debounced level that takes the standing raw level changes as the debounced command changes it. -/
theorem State.setDebounced_of_raw (hr : s.port.raw.get l = b) : s.setDebounced l b = s.debouncedEvent l b := by
  have hraw : s.setRaw l b = s := by
    rw [State.setRaw, PerLine.put_of_get hr]
  rw [State.debouncedEvent, hraw]
  split
  · rename_i h
    exact State.setDebounced_same h
  · rfl

/-- What an effect of a line's change leaves alone. -/
structure State.LinesKept (s t : State) : Prop where
  parks : t.parks = s.parks
  library : t.library = s.library
  pointer : t.pointer = s.pointer
  link : t.link = s.link
  pending : t.pending = s.pending
  debounced : t.port.debounced = s.port.debounced
  raw : t.port.raw = s.port.raw
  setup : t.port.setup = s.port.setup

theorem State.lineEffect_keeps (l : Line) (b : Bool) : s.LinesKept (s.lineEffect l b) := by
  cases l with
  | ready =>
    obtain ⟨h1, h2, h3, h4, h5, h6, h7, h8, -⟩ := s.readyMove_keeps b
    exact ⟨h1, h2, h3, h4, h5, h6, h7, h8⟩
  | fault =>
    obtain ⟨h1, h2, h3, h4, h5, h6, h7, h8, -⟩ := s.faultMove_keeps b
    exact ⟨h1, h2, h3, h4, h5, h6, h7, h8⟩
  | _ => exact ⟨rfl, rfl, rfl, rfl, rfl, rfl, rfl, rfl⟩

/-! ## The commands of a line -/

/-- The debounced command of a line's change to a level. -/
def lineCommand (l : Line) (b : Bool) : Instr :=
  match l, b with
  | .ready, false => .debouncedReadyFall
  | .ready, true => .debouncedReadyRise
  | .fault, false => .debouncedFaultFall
  | .fault, true => .debouncedFaultRise
  | .cover, b => .debouncedCoverChange b
  | .mediaLow, b => .debouncedMediaLowChange b
  | .hold, false => .holdSwitchOff
  | .hold, true => .holdSwitchOn

/-- A debounced command is its change, on what comes before it (R141, R161). -/
theorem exec_lineCommand (l : Line) (b : Bool) (s : State) :
    exec (lineCommand l b) s = .next ((s.beforeLine l b).debouncedEvent l b) := by
  have alone (h : losesImager l b = false) : .next (s.arbitrate.debouncedEvent l b) =
      Host.Outcome.next (φ := Fault) (ρ := Refusal) ((s.beforeLine l b).debouncedEvent l b) := by
    rw [State.beforeLine_of_alone (.inr h)]
  cases l with
  | ready =>
    cases b
    · rfl
    · exact alone rfl
  | fault =>
    cases b
    · exact alone rfl
    · rfl
  | hold => cases b <;> exact alone rfl
  | cover => exact alone rfl
  | mediaLow => exact alone rfl

/-- Where no choice is due, a debounced command is its change alone. -/
theorem exec_lineCommand_of_not_due (hd : s.choiceDue = false) (l : Line) (b : Bool) :
    exec (lineCommand l b) s = .next (s.debouncedEvent l b) := by
  rw [exec_lineCommand, State.beforeLine_of_not_due s l b hd]

/-- A debounced command for a level that does not stand already, where no choice is due. -/
theorem exec_lineCommand_of_change (hd : s.choiceDue = false) (h : s.port.debounced.get l ≠ b) :
    exec (lineCommand l b) s = .next ((s.lineAt l b).lineEffect l b) := by
  rw [exec_lineCommand_of_not_due hd, State.debouncedEvent_of_change h]

/-! ## Raw changes (R151) -/

theorem State.beforeLine_lines (l : Line) (b : Bool) : (s.beforeLine l b).port.setup = s.port.setup ∧
    (s.beforeLine l b).port.debounced = s.port.debounced := by
  rcases s.beforeLine_cases l b with h | ⟨-, -, -, -, h⟩
  · rw [h]
    obtain ⟨-, -, -, -, hdebounced, -, hsetup, -⟩ := s.arbitrate_keeps
    exact ⟨hsetup, hdebounced⟩
  · rw [h]
    exact ⟨rfl, rfl⟩

/-- With a debounce setting on, a raw change moves the raw level alone. -/
theorem State.rawChange_on (hd : s.choiceDue = false) (h : s.port.setup.debounce.get l ≠ .off) :
    s.rawChange l b = s.setRaw l b := by
  rw [State.rawChange, if_neg h, State.arbitrate_of_not_due s hd]
  exact if_neg h

/-- With the debounce setting off, the debounced level takes the changed raw level at once. -/
theorem State.rawChange_off (h : s.port.setup.debounce.get l = .off) :
    s.rawChange l b = ((s.beforeLine l b).setRaw l b).setDebounced l b := by
  have hoff : ((s.beforeLine l b).setRaw l b).port.setup.debounce.get l = .off := by
    rw [State.setRaw_setup, (s.beforeLine_lines l b).1, h]
  rw [State.rawChange, if_pos h, State.takeRaw, if_pos hoff, State.setRaw_raw, PerLine.get_put_same]

/-- A raw change that is a debounced change at once does what the debounced command does. -/
theorem exec_rawLevelChange_eq (hoff : s.port.setup.debounce.get l = .off) (h : s.port.debounced.get l ≠ b) :
    exec (.rawLevelChange l b) s = exec (lineCommand l b) s := by
  have hchange : (s.beforeLine l b).port.debounced.get l ≠ b := by
    rwa [(s.beforeLine_lines l b).2]
  have he : exec (.rawLevelChange l b) s = .next (s.rawChange l b) := rfl
  rw [he, State.rawChange_off hoff, exec_lineCommand, State.debouncedEvent, if_neg hchange]

/-- Where no choice is due, a raw change to the level that stands writes the raw level alone. -/
theorem State.rawChange_same (hd : s.choiceDue = false) (hoff : s.port.setup.debounce.get l = .off)
    (h : s.port.debounced.get l = b) : s.rawChange l b = s.setRaw l b := by
  rw [State.rawChange_off hoff, State.beforeLine_of_not_due s l b hd, State.setDebounced_same]
  exact h

/-! ## The port's moves (R154) -/

theorem State.readyMove_fall (h : s.port.state = .idle ∨ s.port.state = .faulted) :
    s.readyMove false = { s with port := { s.port with state := .offline } } := by
  rcases h with h | h <;> simp [State.readyMove, h]

/-- A fall of READY finds the port OFFLINE already, or with PAGE VOID due (log entry 6). -/
theorem State.readyMove_fall_stays (h : s.port.state = .offline ∨ s.port.state = .sending ∧ s.port.flight = none) :
    s.readyMove false = s := by
  rcases h with h | ⟨h, hf⟩
  · simp [State.readyMove, h]
  · simp [State.readyMove, h, hf]

theorem State.readyMove_rise (h : s.port.state = .offline) : s.readyMove true =
    { s with port := { s.port with state := if s.port.debounced.fault then .faulted else .idle } } := by
  simp [State.readyMove, h]

theorem State.readyMove_rise_stays (h : s.port.state ≠ .offline) : s.readyMove true = s := by
  unfold State.readyMove
  split <;> simp_all

theorem State.faultMove_rise (h : s.port.state = .idle) :
    s.faultMove true = { s with port := { s.port with state := .faulted } } := by
  simp [State.faultMove, h]

theorem State.faultMove_rise_stays (h : s.port.state = .offline ∨ s.port.state = .sending ∧ s.port.flight = none) :
    s.faultMove true = s := by
  rcases h with h | ⟨h, hf⟩
  · simp [State.faultMove, h]
  · simp [State.faultMove, h, hf]

theorem State.faultMove_fall (h : s.port.state = .faulted) :
    s.faultMove false = { s with port := { s.port with state := .idle } } := by
  simp [State.faultMove, h]

theorem State.faultMove_fall_stays (h : s.port.state ≠ .faulted) : s.faultMove false = s := by
  unfold State.faultMove
  split <;> simp_all

/-- An IDLE port goes to OFFLINE at a fall of READY and to FAULTED at a rise of FAULT, and stays else. -/
theorem State.lineEffect_idle_port (h : s.port.state = .idle) (l : Line) (b : Bool) :
    (s.lineEffect l b).port = { s.port with
      state := if l = .ready ∧ b = false then .offline else if l = .fault ∧ b = true then .faulted else .idle } := by
  have stays : s.port = { s.port with state := .idle } := by rw [← h]
  cases l with
  | ready =>
    cases b
    · exact congrArg State.port (State.readyMove_fall (.inl h))
    · exact (congrArg State.port (State.readyMove_rise_stays (by simp [h]))).trans stays
  | fault =>
    cases b
    · exact (congrArg State.port (State.faultMove_fall_stays (by simp [h]))).trans stays
    · exact congrArg State.port (State.faultMove_rise h)
  | _ => exact stays

/-- With the port IDLE only the HOLD switch reaches the stations (R153). -/
theorem State.lineEffect_idle_station (h : s.port.state = .idle) (l : Line) (b : Bool) (i : StationId) :
    (s.lineEffect l b).station i = if l = .hold then (s.station i).panel b else s.station i := by
  cases l with
  | ready =>
    cases b
    · exact (congrArg (State.station · i) (State.readyMove_fall (.inl h))).trans rfl
    · exact congrArg (State.station · i) (State.readyMove_rise_stays (by simp [h]))
  | fault =>
    cases b
    · exact congrArg (State.station · i) (State.faultMove_fall_stays (by simp [h]))
    · exact (congrArg (State.station · i) (State.faultMove_rise h)).trans rfl
  | hold => exact State.station_mapStations s i _
  | _ => rfl

/-- Settles O42: each change is the line at its new level and the effect of the change. -/
theorem linesTakeLevels : Obligations.LinesTakeLevels := by
  unfold Obligations.LinesTakeLevels
  intro command
  have hcommand : command = lineCommand := rfl
  rw [hcommand]
  refine ⟨fun s l b hd hon => ?measured, fun s l b hd hoff => ?atOnce, fun s b hd => ?unmoved,
    fun s l b hoff h => exec_rawLevelChange_eq hoff h, fun s l b h hr hd => ?command, fun s l b h hr hidle => ?idle⟩
  case measured => exact congrArg Host.Outcome.next (State.rawChange_on hd hon)
  case atOnce =>
    by_cases h : s.port.debounced.get l = b
    · refine ⟨_, congrArg Host.Outcome.next (State.rawChange_same hd hoff h), rfl, ?_, fun hne => absurd h hne⟩
      exact (PerLine.put_of_get h).symm
    · have kept := (s.lineAt l b).lineEffect_keeps l b
      refine ⟨_, (exec_rawLevelChange_eq hoff h).trans (exec_lineCommand_of_change hd h), kept.raw, kept.debounced, ?_⟩
      rintro - (rfl | rfl) <;> rfl
  case unmoved =>
    have unmoved (l : Line) (hl : ∀ u : State, u.lineEffect l b = u) : exec (lineCommand l b) s =
        .next (if s.port.debounced.get l = b then s else s.lineAt l b) := by
      rw [exec_lineCommand_of_not_due hd]
      split
      · rename_i h
        rw [State.debouncedEvent_same h]
      · rename_i h
        rw [State.debouncedEvent_of_change h, hl]
    exact ⟨unmoved .cover fun _ => rfl, unmoved .mediaLow fun _ => rfl⟩
  case command => rw [exec_lineCommand_of_not_due hd, State.setDebounced_of_raw hr]
  case idle =>
    intro t
    have ht : t = (s.lineAt l b).lineEffect l b :=
      (State.setDebounced_of_raw hr).trans (State.debouncedEvent_of_change h)
    have kept := (s.lineAt l b).lineEffect_keeps l b
    rw [ht]
    exact ⟨State.lineEffect_idle_port (s := s.lineAt l b) hidle l b, kept.link, kept.parks, kept.library,
      kept.pointer, kept.pending, State.lineEffect_idle_station (s := s.lineAt l b) hidle l b⟩

/-! ## Pages in flight and replies just taken (R161) -/

/-- The page `p` of station `i` is in flight, with `rest` behind it in the queue. -/
def State.Flying (s : State) (i : StationId) (p : Page) (rest : List Page) : Prop :=
  (s.port.state = .sending ∨ s.port.state = .awaitingTaken ∨ s.port.state = .imaging) ∧
  s.port.flight = some i ∧ (s.station i).queue = p :: rest

/-- A fall of READY and a rise of FAULT spoil the page in flight (R161). -/
theorem State.Flying.spoils (h : s.Flying i p rest) :
    s.readyMove false = (s.setStation i (s.spoiledOwner i false p rest)).portAt .offline ∧
    s.faultMove true = (s.setStation i (s.spoiledOwner i false p rest)).portAt .faulted := by
  obtain ⟨hs, hf, hq⟩ := h
  rw [← State.spoilFlight_of_queue false .offline hf hq, ← State.spoilFlight_of_queue false .faulted hf hq]
  rcases hs with hs | hs | hs <;> simp [State.readyMove, State.faultMove, hs, hf]

/-- A due choice means a port that is IDLE, with READY high (R140). -/
theorem State.idle_of_due (h : s.choiceDue = true) : s.port.state = .idle ∧ s.port.debounced.ready = true := by
  rw [State.choiceDue, Bool.and_eq_true, Port.choosing_iff] at h
  obtain ⟨⟨hidle, hready, -⟩, -⟩ := h
  exact ⟨hidle, hready⟩

/-- A change that takes the imager away and falls together with the reply just taken comes before the choice (R161). -/
theorem exec_lineCommand_together (hd : s.choiceDue = true) (hr : s.port.returned = true) (hl : losesImager l b = true)
    (h : s.port.debounced.get l ≠ b) : exec (lineCommand l b) s =
      .next ((State.lineAt { s with port := { s.port with returned := false } } l b).lineEffect l b) := by
  have hbefore : s.beforeLine l b = { s with port := { s.port with returned := false } } := by
    simp [State.beforeLine, hd, hr, hl, h]
  rw [exec_lineCommand, hbefore, State.debouncedEvent_of_change]
  exact h

/-- Settles O43: the port's move at each change, on the line at its new level. -/
theorem readyAndFaultMoveThePort : Obligations.ReadyAndFaultMoveThePort := by
  refine ⟨fun s hd => ?moves, fun s hd hr => ?together⟩
  case moves =>
    intro flying
    have change (l : Line) (b : Bool) (h : s.port.debounced.get l = !b) {t : State}
        (ht : (s.lineAt l b).lineEffect l b = t) : exec (lineCommand l b) s = .next t := by
      rw [← ht, exec_lineCommand_of_change hd (by simp [h])]
    have lined (l : Line) (b : Bool) {i : StationId} {p : Page} {rest : List Page} (h : flying i p rest) :
        (s.lineAt l b).Flying i p rest := h
    refine ⟨fun h => ?readyFall, fun h => ?readyRise, fun h => ?faultRise, fun h => ?faultFall⟩
    case readyFall =>
      have fall {t : State} := change .ready false h (t := t)
      exact ⟨fun hs => fall (State.readyMove_fall_stays (.inl hs)), fun hs => fall (State.readyMove_fall hs),
        fun hs hf => fall (State.readyMove_fall_stays (.inr ⟨hs, hf⟩)),
        fun i p rest hfly => fall (lined .ready false hfly).spoils.1⟩
    case readyRise =>
      have rise {t : State} := change .ready true h (t := t)
      exact ⟨fun hs => rise (State.readyMove_rise hs), fun hs => rise (State.readyMove_rise_stays hs)⟩
    case faultRise =>
      have rise {t : State} := change .fault true h (t := t)
      exact ⟨fun hs => rise (State.faultMove_rise_stays (.inl hs)), fun hs => rise (State.faultMove_rise hs),
        fun hs hf => rise (State.faultMove_rise_stays (.inr ⟨hs, hf⟩)),
        fun i p rest hfly => rise (lined .fault true hfly).spoils.2⟩
    case faultFall =>
      have fall {t : State} := change .fault false h (t := t)
      exact ⟨fun hs => fall (State.faultMove_fall hs), fun hs => fall (State.faultMove_fall_stays hs)⟩
  case together =>
    obtain ⟨hidle, hready⟩ := State.idle_of_due hd
    have together (l : Line) (b : Bool) (hl : losesImager l b = true) (h : s.port.debounced.get l = !b) :=
      exec_lineCommand_together hd hr hl (by simp [h])
    refine ⟨?_, fun hfault => ?_⟩
    · rw [show Instr.debouncedReadyFall = lineCommand .ready false from rfl, together .ready false rfl hready]
      exact congrArg Host.Outcome.next (State.readyMove_fall (.inl hidle))
    · rw [show Instr.debouncedFaultRise = lineCommand .fault true from rfl, together .fault true rfl hfault]
      exact congrArg Host.Outcome.next (State.faultMove_rise hidle)

end Sys2Proof.Machine
end

section
/-! SUPPORT. IMAGER SETUP (R151, R164, R180): its codes, its eleven settings, and the lines that take their raw levels at once. -/

namespace Sys2Proof.Machine

variable {t u : State} {h : Head} {l : Line}

variable (s : State)

/-! ## Debounce and edge codes (R180) -/

theorem byte_gt_three_iff {b : Byte} : 4 ≤ b.toNat ↔ b ≠ 0x00 ∧ b ≠ 0x01 ∧ b ≠ 0x02 ∧ b ≠ 0x03 := by
  simp only [ne_eq, ← BitVec.toNat_inj]
  change _ ↔ ¬ _ = 0 ∧ ¬ _ = 1 ∧ ¬ _ = 2 ∧ ¬ _ = 3
  omega

theorem debounceOf_eq_none {b : Byte} : debounceOf b = none ↔ 4 ≤ b.toNat := by
  rw [byte_gt_three_iff]
  unfold debounceOf
  split_ifs <;> simp_all

theorem edgeOf_eq_none {b : Byte} : edgeOf b = none ↔ 4 ≤ b.toNat := by
  rw [byte_gt_three_iff]
  unfold edgeOf
  split_ifs <;> simp_all

/-! ## The fields of an IMAGER SETUP (R164) -/

/-- The five values in the order of the fields. -/
def PerLine.fields {α : Type} (v : PerLine α) : List α := [v.ready, v.mediaLow, v.cover, v.fault, v.hold]

/-- The five fields are read as a list is. -/
theorem map_fields_perLineOf {α : Type} (f : Byte → Option α) (b0 b1 b2 b3 b4 : Byte) :
    (perLineOf f b0 b1 b2 b3 b4).map PerLine.fields = readAll f [b0, b1, b2, b3, b4] := by
  simp [perLineOf, readAll, Option.map_eq_bind, Option.bind_assoc, Function.comp_def, PerLine.fields]

theorem perLineOf_fields {α : Type} {f : Byte → Option α} {b0 b1 b2 b3 b4 : Byte} {v : PerLine α}
    (h : perLineOf f b0 b1 b2 b3 b4 = some v) : v.fields.map some = [b0, b1, b2, b3, b4].map f := by
  have hread := map_fields_perLineOf f b0 b1 b2 b3 b4
  rw [h] at hread
  exact (readAll_eq_some.mp hread.symm).symm

theorem perLineOf_eq_none {α : Type} {f : Byte → Option α} {b0 b1 b2 b3 b4 : Byte} :
    perLineOf f b0 b1 b2 b3 b4 = none ↔ ∃ b ∈ [b0, b1, b2, b3, b4], f b = none := by
  rw [← readAll_eq_none, ← map_fields_perLineOf, Option.map_eq_none_iff]

section
variable {d0 d1 d2 d3 d4 e0 e1 e2 e3 e4 t1 t0 : Byte}

/-- Valid codes and seconds give a setup, whose fields are the codes read one by one. -/
theorem setupOf_of_valid (hc : ∀ b ∈ [d0, d1, d2, d3, d4, e0, e1, e2, e3, e4], b.toNat ≤ 3)
    (hlow : 1 ≤ (be16 t1 t0).toNat) (hhigh : (be16 t1 t0).toNat ≤ 600) :
    ∃ x, setupOf [d0, d1, d2, d3, d4, e0, e1, e2, e3, e4, t1, t0] = some x ∧ x.imaging = (be16 t1 t0).toNat ∧
      x.debounce.fields.map some = [d0, d1, d2, d3, d4].map debounceOf ∧
      x.edges.fields.map some = [e0, e1, e2, e3, e4].map edgeOf := by
  have named : ∀ b ∈ [d0, d1, d2, d3, d4, e0, e1, e2, e3, e4], ¬ 4 ≤ b.toNat := fun b hb => by
    have := hc b hb
    omega
  have hd : perLineOf debounceOf d0 d1 d2 d3 d4 ≠ none := fun hn => by
    obtain ⟨b, hb, hnone⟩ := perLineOf_eq_none.mp hn
    exact named b (List.mem_append_left [e0, e1, e2, e3, e4] hb) (debounceOf_eq_none.mp hnone)
  have he : perLineOf edgeOf e0 e1 e2 e3 e4 ≠ none := fun hn => by
    obtain ⟨b, hb, hnone⟩ := perLineOf_eq_none.mp hn
    exact named b (List.mem_append_right [d0, d1, d2, d3, d4] hb) (edgeOf_eq_none.mp hnone)
  obtain ⟨d, hd⟩ := Option.ne_none_iff_exists'.mp hd
  obtain ⟨e, he⟩ := Option.ne_none_iff_exists'.mp he
  refine ⟨⟨d, e, (be16 t1 t0).toNat⟩, ?_, rfl, perLineOf_fields hd, perLineOf_fields he⟩
  simp [setupOf, hd, he, hlow, hhigh]

/-- A code above 03h, or seconds outside 1 to 600, give none. -/
theorem setupOf_of_invalid (h : (¬ ∀ b ∈ [d0, d1, d2, d3, d4, e0, e1, e2, e3, e4], b.toNat ≤ 3) ∨
    (be16 t1 t0).toNat = 0 ∨ 600 < (be16 t1 t0).toNat) :
    setupOf [d0, d1, d2, d3, d4, e0, e1, e2, e3, e4, t1, t0] = none := by
  rw [Option.eq_none_iff_forall_ne_some]
  intro x hx
  simp only [setupOf, Option.bind_eq_some_iff] at hx
  obtain ⟨d, hd, e, he, hn⟩ := hx
  split at hn
  · rename_i hrange
    rcases h with hcode | hlow | hhigh
    · simp only [not_forall, not_le] at hcode
      obtain ⟨b, hb, hlarge⟩ := hcode
      rcases List.mem_append.mp (show b ∈ [d0, d1, d2, d3, d4] ++ [e0, e1, e2, e3, e4] from hb) with hb | hb
      · have hnone := perLineOf_eq_none.mpr ⟨b, hb, debounceOf_eq_none.mpr hlarge⟩
        rw [hd] at hnone
        cases hnone
      · have hnone := perLineOf_eq_none.mpr ⟨b, hb, edgeOf_eq_none.mpr hlarge⟩
        rw [he] at hnone
        cases hnone
    · omega
    · omega
  · cases hn

end

/-! ## The lines that take their raw levels (R151) -/

/-- What the changes of lines leave alone: library, park slots, pointer, raw levels and setup, and a running imaging timer's
setting (R151, R164). -/
structure State.SetupKept (s t : State) : Prop where
  library : t.library = s.library
  parks : t.parks = s.parks
  pointer : t.pointer = s.pointer
  raw : t.port.raw = s.port.raw
  setup : t.port.setup = s.port.setup
  imagingTimer : t.port.imagingTimer = s.port.imagingTimer ∨ t.port.imagingTimer = none

theorem State.SetupKept.refl (s : State) : s.SetupKept s := ⟨rfl, rfl, rfl, rfl, rfl, .inl rfl⟩

theorem State.SetupKept.trans {s : State} (h : s.SetupKept t) (h' : t.SetupKept u) : s.SetupKept u where
  library := h'.library.trans h.library
  parks := h'.parks.trans h.parks
  pointer := h'.pointer.trans h.pointer
  raw := h'.raw.trans h.raw
  setup := h'.setup.trans h.setup
  imagingTimer := h'.imagingTimer.elim (fun he => he ▸ h.imagingTimer) .inr

/-- A spoil turns the imaging timer off. -/
theorem State.spoilFlight_imagingTimer (s : State) (timeout : Bool) (dest : PortState) :
    (s.spoilFlight timeout dest).port.imagingTimer = none := by
  unfold State.spoilFlight
  split <;> rfl

/-- A move of the port changes its state, or spoils. -/
theorem State.readyMove_moves (b : Bool) : (∃ x, s.readyMove b = { s with port := { s.port with state := x } }) ∨
    ∃ dest, s.readyMove b = s.spoilFlight false dest := by
  unfold State.readyMove
  split
  case h_4 =>
    split
    · exact .inr ⟨_, rfl⟩
    · exact .inl ⟨s.port.state, rfl⟩
  case h_5 => exact .inr ⟨_, rfl⟩
  case h_6 => exact .inr ⟨_, rfl⟩
  case h_7 => exact .inl ⟨s.port.state, rfl⟩
  all_goals exact .inl ⟨_, rfl⟩

theorem State.faultMove_moves (b : Bool) : (∃ x, s.faultMove b = { s with port := { s.port with state := x } }) ∨
    ∃ dest, s.faultMove b = s.spoilFlight false dest := by
  unfold State.faultMove
  split
  case h_3 =>
    split
    · exact .inr ⟨_, rfl⟩
    · exact .inl ⟨s.port.state, rfl⟩
  case h_4 => exact .inr ⟨_, rfl⟩
  case h_5 => exact .inr ⟨_, rfl⟩
  case h_6 => exact .inl ⟨s.port.state, rfl⟩
  all_goals exact .inl ⟨_, rfl⟩

theorem State.lineEffect_imagingTimer (l : Line) (b : Bool) :
    (s.lineEffect l b).port.imagingTimer = s.port.imagingTimer ∨ (s.lineEffect l b).port.imagingTimer = none := by
  have moved {t : State} (ht : (∃ x, t = { s with port := { s.port with state := x } }) ∨ ∃ d, t = s.spoilFlight false d) :
      t.port.imagingTimer = s.port.imagingTimer ∨ t.port.imagingTimer = none := by
    rcases ht with ⟨x, rfl⟩ | ⟨d, rfl⟩
    · exact .inl rfl
    · exact .inr (s.spoilFlight_imagingTimer false d)
  cases l with
  | ready => exact moved (s.readyMove_moves b)
  | fault => exact moved (s.faultMove_moves b)
  | _ => exact .inl rfl

theorem State.lineEffect_kept (l : Line) (b : Bool) : s.SetupKept (s.lineEffect l b) := by
  have kept := s.lineEffect_keeps l b
  exact ⟨kept.library, kept.parks, kept.pointer, kept.raw, kept.setup, s.lineEffect_imagingTimer l b⟩

theorem State.setDebounced_kept (l : Line) (b : Bool) : s.SetupKept (s.setDebounced l b) := by
  unfold State.setDebounced
  split
  · exact .refl s
  · refine State.SetupKept.trans ?_ (State.lineEffect_kept _ l b)
    exact ⟨rfl, rfl, rfl, rfl, rfl, .inl rfl⟩

theorem State.takeRaw_kept (l : Line) : s.SetupKept (s.takeRaw l) := by
  unfold State.takeRaw
  split
  · exact s.setDebounced_kept l _
  · exact .refl s

theorem State.setDebounced_debounced (l : Line) (b : Bool) :
    (s.setDebounced l b).port.debounced = s.port.debounced.put l b := by
  unfold State.setDebounced
  split
  · rename_i h
    exact (PerLine.put_of_get h).symm
  · exact (State.lineEffect_keeps l b).debounced

/-- One line takes its raw level with its debounce off, and every other line keeps its level. -/
theorem State.takeRaw_level (l m : Line) : (s.takeRaw l).port.debounced.get m =
    if m = l ∧ s.port.setup.debounce.get m = .off then s.port.raw.get m else s.port.debounced.get m := by
  unfold State.takeRaw
  by_cases hm : m = l
  · subst hm
    split <;> simp_all [State.setDebounced_debounced]
  · split <;> simp [State.setDebounced_debounced, hm, PerLine.get_put_ne _ _ (Ne.symm hm)]

/-- The lines of a list take their raw levels one after another. -/
def State.takeRaws (s : State) (lines : List Line) : State := lines.foldl State.takeRaw s

theorem State.takeRaws_kept (lines : List Line) (s : State) : s.SetupKept (s.takeRaws lines) := by
  induction lines generalizing s with
  | nil => exact .refl s
  | cons l lines ih => exact (s.takeRaw_kept l).trans (ih _)

theorem State.takeRaws_level (lines : List Line) (s : State) (m : Line) : (s.takeRaws lines).port.debounced.get m =
    if m ∈ lines ∧ s.port.setup.debounce.get m = .off then s.port.raw.get m else s.port.debounced.get m := by
  induction lines generalizing s with
  | nil => simp [State.takeRaws]
  | cons l lines ih =>
    have kept := s.takeRaw_kept l
    have hcons : s.takeRaws (l :: lines) = (s.takeRaw l).takeRaws lines := rfl
    rw [hcons, ih, kept.setup, kept.raw, State.takeRaw_level]
    by_cases hl : m = l
    · subst hl
      by_cases hoff : s.port.setup.debounce.get m = .off <;> simp [hoff]
    · simp [hl]

/-- A line whose raw level stands debounced already takes nothing. -/
theorem State.takeRaw_same (hs : s.port.setup.debounce.get l = .off → s.port.raw.get l = s.port.debounced.get l) :
    s.takeRaw l = s := by
  unfold State.takeRaw
  split
  · rename_i hoff
    exact State.setDebounced_same (hs hoff).symm
  · rfl

/-- One line takes level `raw l` where its debounce setting in `x` is off and the level is a change. -/
def State.takeLevel (x : ImagerSetup) (raw : PerLine Bool) (u : State) (l : Line) : State :=
  if x.debounce.get l = .off ∧ u.port.debounced.get l ≠ raw.get l then u.setDebounced l (raw.get l) else u

/-- Under the settings and raw levels of the state itself, this is what the line takes. -/
theorem State.takeRaw_eq_takeLevel (u : State) (l : Line) : u.takeRaw l = u.takeLevel u.port.setup u.port.raw l := by
  unfold State.takeRaw State.takeLevel
  by_cases hoff : u.port.setup.debounce.get l = .off
  · by_cases hl : u.port.debounced.get l = u.port.raw.get l
    · simp [hl, State.setDebounced_same]
    · simp [hoff, hl]
  · simp [hoff]

theorem State.takeRaws_eq_foldl (lines : List Line) (s : State) :
    s.takeRaws lines = lines.foldl (State.takeLevel s.port.setup s.port.raw) s := by
  induction lines generalizing s with
  | nil => rfl
  | cons l lines ih =>
    have kept := s.takeRaw_kept l
    have hcons : s.takeRaws (l :: lines) = (s.takeRaw l).takeRaws lines := rfl
    rw [hcons, ih, kept.setup, kept.raw, List.foldl_cons, ← State.takeRaw_eq_takeLevel]

/-! ## IMAGER SETUP (R164) -/

/-- An accepted IMAGER SETUP is answered as `orderImagerSetup` says. -/
theorem exec_imagerSetup (ha : s.accepts h) {params : List Byte} (hp : params.length = 12) {a : Answer}
    (hr : orderImagerSetup params s = (t, a)) : exec (.imagerSetup h params) s = .next (t.owe (leadOf h 0x0C) a) :=
  exec_answered rfl ha (by simp [hp]) hr

/-- The five lines in the order of the setup's fields. -/
def linesInFieldOrder : List Line := [.ready, .mediaLow, .cover, .fault, .hold]

theorem mem_linesInFieldOrder (l : Line) : l ∈ linesInFieldOrder := by cases l <;> decide

/-- The new settings alone, no line having taken its raw level yet. -/
def State.withSetup (x : ImagerSetup) : State := { s with port := { s.port with setup := x } }

theorem State.applySetup_eq (x : ImagerSetup) : s.applySetup x = (s.withSetup x).takeRaws linesInFieldOrder := rfl

/-- Settles O38: the setup by its fields, then the lines one after another. -/
theorem imagerSetupReplaces : Obligations.ImagerSetupReplaces := by
  refine ⟨⟨rfl, rfl, rfl, rfl, rfl, rfl, rfl, rfl, fun b hb => ⟨debounceOf_eq_none.mpr hb, edgeOf_eq_none.mpr hb⟩⟩, ?_⟩
  intro s h d0 d1 d2 d3 d4 e0 e1 e2 e3 e4 t1 t0 ha data codes seconds
  refine ⟨fun hc hlow hhigh => ?taken, fun hbad => ?refused⟩
  case refused =>
    refine exec_imagerSetup s ha rfl ?_
    simp only [orderImagerSetup, data, setupOf_of_invalid hbad]
    rfl
  case taken =>
    obtain ⟨x, hx, himaging, hdebounce, hedges⟩ := setupOf_of_valid hc hlow hhigh
    have kept := State.takeRaws_kept linesInFieldOrder (s.withSetup x)
    have level := State.takeRaws_level linesInFieldOrder (s.withSetup x)
    have hexec : exec (.imagerSetup h data) s = .next ((s.applySetup x).owe (leadOf h 0x0C) .done) := by
      refine exec_imagerSetup s ha rfl ?_
      simp only [orderImagerSetup, data, hx]
      rfl
    rw [State.applySetup_eq] at hexec
    refine ⟨_, x, hexec, kept.setup, himaging, hdebounce, hedges, kept.raw,
      State.takeRaws_eq_foldl linesInFieldOrder (s.withSetup x), fun l => ?_, kept.imagingTimer, kept.library, kept.parks,
      kept.pointer, fun hsame => ?_⟩
    · simp only [level, mem_linesInFieldOrder, true_and]
      rfl
    · exact List.foldl_fixed' (fun l => (s.withSetup x).takeRaw_same (hsame l)) linesInFieldOrder

end Sys2Proof.Machine
end

section
/-! SUPPORT. The print link byte by byte (R167, R168, R171, R177): status reads, the inter-byte timer and link reset, and what a
byte does in each receive state. -/

namespace Sys2Proof.Machine

variable {s t : State} {lead hi lo b : Byte} {more : List Byte}

/-! ## A byte by receive state (R167, R168) -/

theorem exec_byteTaken (hd : s.choiceDue = false) (b : Byte) : exec (.byteTaken b) s = .next (s.takeByte b) := by
  have he : exec (.byteTaken b) s = .next (s.arbitrate.takeByte b) := rfl
  rw [he, State.arbitrate_of_not_due s hd]

theorem State.takeByte_awaitLead (h : s.link.receive = .awaitLead) (b : Byte) :
    s.takeByte b = s.setReceive (.receiving b []) true := by simp only [State.takeByte, h]

theorem State.takeByte_receiving {rest : List Byte} (h : s.link.receive = .receiving lead rest) (b : Byte) :
    s.takeByte b = s.frameByte lead (rest ++ [b]) := by simp only [State.takeByte, h]

theorem State.takeByte_discarding (h : s.link.receive = .discarding lead) (b : Byte) :
    s.takeByte b = s.setReceive (.discarding lead) true := by simp only [State.takeByte, h]

theorem State.takeByte_statusOwed {rest : List Byte} (h : s.link.receive = .statusOwed lead rest) (b : Byte) :
    s.takeByte b = s := by simp only [State.takeByte, h]

theorem State.takeByte_linkHeld (h : s.link.receive = .linkHeld) (b : Byte) : s.takeByte b = s := by
  simp only [State.takeByte, h]

/-- A byte taken once the length field has come: the frame is discarded, answered, or goes on (R168). -/
theorem State.frameByte_cons (s : State) (lead hi lo : Byte) (more : List Byte) : s.frameByte lead (hi :: lo :: more) =
    if 1023 < (be16 hi lo).toNat then s.setReceive (.discarding lead) true
    else if more.length = (be16 hi lo).toNat + 1 then
      s.answerFrame (Lead.ofByte lead) (more.take (be16 hi lo).toNat) (sumBytes (lead :: hi :: lo :: more))
    else s.setReceive (.receiving lead (hi :: lo :: more)) true := rfl

/-- A byte that does not complete the frame is kept (R168). -/
theorem State.frameByte_within (s : State) (lead : Byte) (hn : (be16 hi lo).toNat ≤ 1023)
    (hm : more.length ≠ (be16 hi lo).toNat + 1) :
    s.frameByte lead (hi :: lo :: more) = s.setReceive (.receiving lead (hi :: lo :: more)) true := by
  rw [State.frameByte_cons, if_neg (Nat.not_lt.mpr hn), if_neg hm]

/-- The second byte of the length field says whether the frame is taken or discarded (R168). -/
theorem State.frameByte_length (s : State) (lead hi lo : Byte) : s.frameByte lead [hi, lo] =
    s.setReceive (if 1023 < (be16 hi lo).toNat then .discarding lead else .receiving lead [hi, lo]) true := by
  by_cases hn : 1023 < (be16 hi lo).toNat
  · rw [State.frameByte_cons, if_pos hn, if_pos hn]
  · rw [State.frameByte_within s lead (more := []) (Nat.not_lt.mp hn) (by simp), if_neg hn]

/-- The check byte completes the frame, which is then answered (R168, R169, R170). -/
theorem State.frameByte_complete (s : State) (lead b : Byte) (hn : (be16 hi lo).toNat ≤ 1023)
    (hm : more.length = (be16 hi lo).toNat) : s.frameByte lead (hi :: lo :: (more ++ [b])) =
      s.answerFrame (Lead.ofByte lead) more (sumBytes (lead :: hi :: lo :: (more ++ [b]))) := by
  rw [State.frameByte_cons, if_neg (Nat.not_lt.mpr hn), if_pos (by simp [hm]), ← hm, List.take_left]

/-! ## Frames that no order row spells (R170, R181) -/

/-- A right frame that its order turns away is answered REFUSED, and nothing else changes. -/
theorem State.answerFrame_refused {l : Lead} {data : List Byte} {r : Reason}
    (h : carryOut l data s = (s, .refused r)) : s.answerFrame l data 0 = s.owe l (.refused r) := by
  rw [State.answerFrame_right, h]

/-- No order has the code 00h or a code of 0Eh or above. -/
theorem carryOut_unknown {l : Lead} (data : List Byte) (s : State) (hl : l.code = 0x00 ∨ 0x0E ≤ l.code.toNat) :
    carryOut l data s = (s, .refused .unknownOrder) := by
  have ne : ∀ k : BitVec 5, 1 ≤ k.toNat → k.toNat < 14 → l.code ≠ k := by
    rintro k h1 h14 rfl
    rcases hl with h | h
    · rw [h] at h1
      exact absurd h1 (by decide)
    · omega
  simp (disch := decide) only [carryOut, ne, if_false]

theorem carryOut_of_station {l : Lead} (hl : l.code = 0x09) (data : List Byte) (s : State) :
    carryOut l data s = orderStation l.station data s := by
  unfold carryOut
  simp only [hl]
  rfl

theorem carryOut_of_device {l : Lead} (hl : l.code = 0x0C) (data : List Byte) (s : State) :
    carryOut l data s = orderDevice data s := by
  unfold carryOut
  simp only [hl]
  rfl

theorem orderStation_badLength (i : StationId) {data : List Byte} (s : State) (h : data.length ≠ 5) :
    orderStation i data s = (s, .refused .badLength) := if_pos h

/-- The sub-functions of STATION are 01h to 0Bh (R180). -/
theorem orderStation_badField (i : StationId) {data : List Byte} (s : State) (h : data.length = 5)
    (hf : (byteAt data 0).toNat = 0 ∨ 0x0C ≤ (byteAt data 0).toNat) :
    orderStation i data s = (s, .refused .badField) := by
  obtain ⟨f, params, rfl⟩ := List.exists_cons_of_length_eq_add_one h
  have ne : ∀ k : Byte, 1 ≤ k.toNat → k.toNat < 12 → f ≠ k := by
    rintro k h1 h12 rfl
    change f.toNat = 0 ∨ 0x0C ≤ f.toNat at hf
    omega
  rw [orderStation, if_neg (not_not.mpr h)]
  simp (disch := decide) only [ne, if_false]

/-- The sub-functions of DEVICE are 01h to 04h (R180). -/
theorem orderDevice_badField {data : List Byte} (s : State) (h : data ≠ [])
    (hf : (byteAt data 0).toNat = 0 ∨ 0x05 ≤ (byteAt data 0).toNat) : orderDevice data s = (s, .refused .badField) := by
  obtain ⟨f, params, rfl⟩ := List.exists_cons_of_ne_nil h
  have ne : ∀ k : Byte, 1 ≤ k.toNat → k.toNat < 5 → f ≠ k := by
    rintro k h1 h5 rfl
    change f.toNat = 0 ∨ 0x05 ≤ f.toNat at hf
    omega
  simp (disch := decide) only [orderDevice, ne, if_false]

/-- Settles O19: by the receive state, and by the order code of a completed frame. -/
theorem byteTakenFollowsReceiveState : Obligations.ByteTakenFollowsReceiveState := by
  intro s b lead hi lo more hd
  rw [exec_byteTaken hd]
  have complete (h : s.link.receive = .receiving lead (hi :: lo :: more)) (hm : more.length = (be16 hi lo).toNat)
      (hn : (be16 hi lo).toNat ≤ 1023) : s.takeByte b =
        s.answerFrame (Lead.ofByte lead) more (sumBytes (lead :: hi :: lo :: (more ++ [b]))) :=
    (State.takeByte_receiving h b).trans (s.frameByte_complete lead b hn hm)
  refine ⟨fun h => ?_, fun h => ?_, fun h => ?_, fun h hm hn => ?_, fun h hm hn hsum => ?_, fun h hm hn hsum hcode => ?_,
    fun h hm hn hsum => ?orders, fun h => ?_, fun h => ?_, fun h => ?_⟩
  · rw [State.takeByte_awaitLead h]
  · rw [State.takeByte_receiving h]
    rfl
  · rw [State.takeByte_receiving h, List.singleton_append, State.frameByte_length]
  · rw [State.takeByte_receiving h, List.cons_append, List.cons_append, State.frameByte_within _ _ hn]
    simp only [List.length_append, List.length_singleton]
    omega
  · rw [complete h hm hn, State.answerFrame_wrong hsum]
  · rw [complete h hm hn, hsum, State.answerFrame_refused (carryOut_unknown more s hcode)]
  case orders =>
    have refused {r : Reason} (hr : carryOut (Lead.ofByte lead) more s = (s, .refused r)) :
        Host.Outcome.next (φ := Fault) (ρ := Refusal) (s.takeByte b) = .next (s.owe (Lead.ofByte lead) (.refused r)) := by
      rw [complete h hm hn, hsum, State.answerFrame_refused hr]
    refine ⟨fun hc h5 => refused ?_, fun hc h5 hf => refused ?_, fun hc hnil => refused ?_, fun hc hne hf => refused ?_⟩
    · rw [carryOut_of_station hc, orderStation_badLength _ _ h5]
    · rw [carryOut_of_station hc, orderStation_badField _ _ h5 hf]
    · rw [carryOut_of_device hc, hnil]
      rfl
    · rw [carryOut_of_device hc, orderDevice_badField _ hne hf]
  · rw [State.takeByte_discarding h]
  · rw [State.takeByte_statusOwed h]
  · rw [State.takeByte_linkHeld h]

/-! ## Timer expiry and status reads (R168, R171) -/

theorem exec_interByteTimerExpiry (hd : s.choiceDue = false) :
    exec .interByteTimerExpiry s = .next s.interByteExpiry := by
  have he : exec .interByteTimerExpiry s = .next s.arbitrate.interByteExpiry := rfl
  rw [he, State.arbitrate_of_not_due s hd]

theorem exec_endingStatusRead (hd : s.choiceDue = false) : exec .endingStatusRead s = .next s.readStatus := by
  have he : exec .endingStatusRead s = .next s.arbitrate.readStatus := rfl
  rw [he, State.arbitrate_of_not_due s hd]

/-- Settles O20: by the receive state. -/
theorem timerExpiryAndReads : Obligations.TimerExpiryAndReads := by
  intro s hd
  rw [exec_interByteTimerExpiry hd, exec_endingStatusRead hd]
  refine ⟨fun lead rest ht h => ?_, fun lead ht h => ?_, fun b h => ?_, fun b c rest h => ?_, fun h => ?_⟩
  · simp only [State.interByteExpiry, ht, h, if_true]
  · simp only [State.interByteExpiry, ht, h, if_true]
  · simp only [State.readStatus, h]
  · simp only [State.readStatus, h]
  · unfold State.readStatus
    split
    · rename_i b hb
      exact absurd hb (h b [])
    · rename_i b c rest hb
      exact absurd hb (h b (c :: rest))
    · rfl

/-! ## Link reset (R177) -/

theorem State.linkRelease_held (h : s.link.receive = .linkHeld) : s.linkRelease = s.setReceive .awaitLead false := by
  simp only [State.linkRelease, h]

/-- Settles O21: each command on the state a due choice leaves, whose link is that of `s`. -/
theorem linkResetAndRelease : Obligations.LinkResetAndRelease := by
  intro s u
  have hlink : u.link = s.link := s.arbitrate_link
  have byte (b : Byte) : exec (.byteTaken b) s = .next (u.takeByte b) := rfl
  refine ⟨State.arbitrate_of_not_due s, ⟨u.linkReset, rfl, ?_, fun i => ?_, s.arbitrate_parks, s.arbitrate_library, rfl, rfl,
    s.arbitrate_pending⟩, fun b h => ?_, fun h => ?_, fun b h => ?_⟩
  · rw [← hlink]
    rfl
  · exact (State.station_setReceive ..).trans (State.station_mapStations u i _)
  · rw [byte, State.takeByte_linkHeld (hlink ▸ h)]
  · have he : exec .linkResetRelease s = .next u.linkRelease := rfl
    rw [he, State.linkRelease_held (hlink ▸ h), ← hlink]
    rfl
  · rw [byte, State.takeByte_awaitLead (hlink ▸ h)]

/-! ## The inter-byte timer through every command (R168) -/

/-- The receive state and the inter-byte timer stay as they are. -/
structure State.SameReception (s t : State) : Prop where
  receive : t.link.receive = s.link.receive
  interByte : t.link.interByte = s.link.interByte

theorem State.SameReception.timerAgrees (h : s.SameReception t) (hs : s.timerAgrees = true) : t.timerAgrees = true := by
  rw [State.timerAgrees, h.receive, h.interByte]
  exact hs

theorem State.SameReception.of_link (h : t.link = s.link) : s.SameReception t := ⟨by rw [h], by rw [h]⟩

theorem State.SameReception.trans {u : State} (h : s.SameReception t) (h' : t.SameReception u) : s.SameReception u :=
  ⟨h'.receive.trans h.receive, h'.interByte.trans h.interByte⟩

/-! ### Lines and replies leave the reception alone -/

theorem State.spoilFlight_link (timeout : Bool) (d : PortState) : (s.spoilFlight timeout d).link = s.link := by
  unfold State.spoilFlight
  split <;> rfl

theorem State.beforeLine_link (l : Line) (b : Bool) : (s.beforeLine l b).link = s.link := by
  rcases s.beforeLine_cases l b with h | ⟨-, -, -, -, h⟩ <;> rw [h]
  exact s.arbitrate_link

/-- A debounced change touches the attention causes of the link alone. -/
theorem State.setDebounced_reception (l : Line) (b : Bool) : s.SameReception (s.setDebounced l b) := by
  unfold State.setDebounced
  split
  · exact .of_link rfl
  · refine .trans ?_ (.of_link (State.lineEffect_keeps l b).link)
    dsimp only
    split
    · exact ⟨rfl, rfl⟩
    · exact .of_link rfl

theorem State.debouncedEvent_reception (l : Line) (b : Bool) : s.SameReception (s.debouncedEvent l b) := by
  unfold State.debouncedEvent
  split
  · exact .of_link rfl
  · have h := State.setDebounced_reception (s := s.setRaw l b) l b
    exact ⟨h.receive, h.interByte⟩

theorem State.takeRaw_reception (l : Line) : s.SameReception (s.takeRaw l) := by
  unfold State.takeRaw
  split
  · exact State.setDebounced_reception l _
  · exact .of_link rfl

theorem State.rawChange_reception (l : Line) (b : Bool) : s.SameReception (s.rawChange l b) := by
  have before : s.SameReception ((if s.port.setup.debounce.get l = .off then s.beforeLine l b else s.arbitrate).setRaw l b) := by
    split
    · exact .of_link (State.beforeLine_link l b)
    · exact .of_link s.arbitrate_link
  exact before.trans (State.takeRaw_reception l)

theorem State.pageCloseSent_link : s.pageCloseSent.link = s.link := by
  unfold State.pageCloseSent
  split
  · split <;> rfl
  · rfl

theorem State.pageVoidSent_link : s.pageVoidSent.link = s.link := by
  unfold State.pageVoidSent
  split <;> rfl

theorem State.portTimeout_link (b : Bool) : (s.portTimeout b).link = s.link := by
  unfold State.portTimeout
  split
  · exact State.spoilFlight_link ..
  · rfl

theorem State.replyTaken_link (s : State) : s.replyTaken.link = s.link := by
  unfold State.replyTaken
  split <;> rfl

theorem State.replyRefused_link (s : State) : s.replyRefused.link = s.link := by
  unfold State.replyRefused
  split
  · split <;> rfl
  · rfl

theorem State.replyImaged_link (a : Byte) (n : Half) (s : State) : (s.replyImaged a n).link = s.link := by
  unfold State.replyImaged
  split <;> rfl

theorem State.replySpoiled_link (a : Byte) (n : Half) (s : State) : (s.replySpoiled a n).link = s.link := by
  unfold State.replySpoiled
  split
  · rfl
  · exact State.spoilFlight_link ..

/-- A reply, taken or stray, after a due choice leaves the link alone. -/
theorem State.checkedReply_link (s : State) (sum : Byte) {take : State → State} (h : ∀ u, (take u).link = u.link) :
    (s.arbitrate.checkedReply sum take).link = s.link := by
  unfold State.checkedReply
  split
  · exact (h _).trans s.arbitrate_link
  · exact s.arbitrate_link

theorem readImagerBytes_link (bytes : List Byte) (s : State) : (readImagerBytes bytes s).link = s.link := by
  fun_induction Sys2Proof.Machine.readImagerBytes bytes s with
  | case2 s c rest ih => exact ih.trans (s.checkedReply_link _ State.replyTaken_link)
  | case4 s r c rest _ ih => exact ih.trans (s.checkedReply_link _ State.replyRefused_link)
  | case6 s i p1 p0 c rest _ _ ih => exact ih.trans (s.checkedReply_link _ (State.replyImaged_link _ _))
  | case8 s i p1 p0 c rest _ _ _ ih => exact ih.trans (s.checkedReply_link _ (State.replySpoiled_link _ _))
  | _ => exact State.arbitrate_link _

/-! ### The link's own events -/

theorem State.setReceive_timerAgrees (s : State) (r : Receive) : (s.setReceive r r.timed).timerAgrees = true := by
  simp [State.timerAgrees]

theorem State.answerFrame_timerAgrees (s : State) (l : Lead) (data : List Byte) (sum : Byte) :
    (s.answerFrame l data sum).timerAgrees = true := by
  obtain ⟨u, a, hu, -⟩ := s.answerFrame_cases l data sum
  rw [hu]
  rfl

theorem State.takeByte_timerAgrees (b : Byte) (h : s.timerAgrees = true) : (s.takeByte b).timerAgrees = true := by
  cases hr : s.link.receive with
  | awaitLead =>
    rw [State.takeByte_awaitLead hr]
    exact s.setReceive_timerAgrees (.receiving b [])
  | receiving lead rest =>
    rw [State.takeByte_receiving hr]
    unfold State.frameByte
    split
    · dsimp only
      split
      · exact s.setReceive_timerAgrees (.discarding lead)
      · split
        · exact s.answerFrame_timerAgrees ..
        · exact s.setReceive_timerAgrees (.receiving lead _)
    · exact s.setReceive_timerAgrees (.receiving lead _)
  | discarding lead =>
    rw [State.takeByte_discarding hr]
    exact s.setReceive_timerAgrees (.discarding lead)
  | statusOwed x rest => rwa [State.takeByte_statusOwed hr]
  | linkHeld => rwa [State.takeByte_linkHeld hr]

theorem State.foldl_takeByte_timerAgrees (bytes : List Byte) (h : s.timerAgrees = true) :
    (bytes.foldl State.takeByte s).timerAgrees = true := by
  induction bytes generalizing s with
  | nil => exact h
  | cons b bytes ih => exact ih (State.takeByte_timerAgrees b h)

theorem State.receiveOrder_timerAgrees (h : Head) (code : BitVec 5) (data : List Byte) (hs : s.timerAgrees = true) :
    (s.receiveOrder h code data).timerAgrees = true := by
  unfold State.receiveOrder
  dsimp only
  split
  · split
    · exact s.answerFrame_timerAgrees ..
    · exact State.foldl_takeByte_timerAgrees _ hs
  · exact State.foldl_takeByte_timerAgrees _ hs

theorem State.interByteExpiry_timerAgrees (h : s.timerAgrees = true) : s.interByteExpiry.timerAgrees = true := by
  unfold State.interByteExpiry
  split
  · split
    · rfl
    · rfl
    · exact h
  · exact h

/-- A read is given in STATUS OWED alone, where the timer is off and stays off. -/
theorem State.readStatus_timerAgrees (h : s.timerAgrees = true) : s.readStatus.timerAgrees = true := by
  unfold State.readStatus
  split
  · rename_i hr
    simpa [State.timerAgrees, hr, Receive.timed] using h
  · rename_i hr
    simpa [State.timerAgrees, hr, Receive.timed] using h
  · exact h

theorem State.linkRelease_timerAgrees (h : s.timerAgrees = true) : s.linkRelease.timerAgrees = true := by
  unfold State.linkRelease
  split
  · rfl
  · exact h

/-! ### Every command -/

theorem exec_timerAgrees (c : Instr) (hs : s.timerAgrees = true) : ∃ t, exec c s = .next t ∧ t.timerAgrees = true := by
  have ha : s.arbitrate.timerAgrees = true := State.SameReception.timerAgrees (.of_link s.arbitrate_link) hs
  have same {t : State} (h : t.link = s.link) : t.timerAgrees = true := State.SameReception.timerAgrees (.of_link h) hs
  have line (l : Line) (b : Bool) : (s.arbitrate.debouncedEvent l b).timerAgrees = true :=
    (State.debouncedEvent_reception l b).timerAgrees ha
  have before (l : Line) (b : Bool) : ((s.beforeLine l b).debouncedEvent l b).timerAgrees = true :=
    (State.debouncedEvent_reception l b).timerAgrees (same (State.beforeLine_link l b))
  cases c with
  | powerOn => exact ⟨_, rfl, rfl⟩
  | linkReset => exact ⟨_, rfl, rfl⟩
  | linkResetRelease => exact ⟨_, rfl, State.linkRelease_timerAgrees ha⟩
  | endingStatusRead => exact ⟨_, rfl, State.readStatus_timerAgrees ha⟩
  | interByteTimerExpiry => exact ⟨_, rfl, State.interByteExpiry_timerAgrees ha⟩
  | byteTaken b => exact ⟨_, rfl, State.takeByte_timerAgrees b ha⟩
  | idleTimerExpiry i => exact ⟨_, rfl, ha⟩
  | rawLevelChange l b => exact ⟨_, rfl, (State.rawChange_reception l b).timerAgrees hs⟩
  | debouncedReadyFall => exact ⟨_, rfl, before .ready false⟩
  | debouncedFaultRise => exact ⟨_, rfl, before .fault true⟩
  | debouncedReadyRise => exact ⟨_, rfl, line .ready true⟩
  | debouncedFaultFall => exact ⟨_, rfl, line .fault false⟩
  | debouncedCoverChange b => exact ⟨_, rfl, line .cover b⟩
  | debouncedMediaLowChange b => exact ⟨_, rfl, line .mediaLow b⟩
  | holdSwitchOn => exact ⟨_, rfl, line .hold true⟩
  | holdSwitchOff => exact ⟨_, rfl, line .hold false⟩
  | arbiterChoice => exact ⟨_, rfl, ha⟩
  | pageCloseSent => exact ⟨_, rfl, same (State.pageCloseSent_link.trans s.arbitrate_link)⟩
  | pageVoidSent => exact ⟨_, rfl, same (State.pageVoidSent_link.trans s.arbitrate_link)⟩
  | taken sum => exact ⟨_, rfl, same (s.checkedReply_link sum State.replyTaken_link)⟩
  | refused reason sum => exact ⟨_, rfl, same (s.checkedReply_link sum State.replyRefused_link)⟩
  | imaged station page sum => exact ⟨_, rfl, same (s.checkedReply_link sum (State.replyImaged_link _ _))⟩
  | spoiled station page sum => exact ⟨_, rfl, same (s.checkedReply_link sum (State.replySpoiled_link _ _))⟩
  | replyTimerExpiry => exact ⟨_, rfl, same ((State.portTimeout_link _).trans s.arbitrate_link)⟩
  | imagingTimerExpiry => exact ⟨_, rfl, same ((State.portTimeout_link _).trans s.arbitrate_link)⟩
  | imagerLinkQuietTest bytes => exact ⟨_, rfl, same (readImagerBytes_link bytes s)⟩
  | _ => exact ⟨_, rfl, State.receiveOrder_timerAgrees _ _ _ ha⟩

/-- Settles O13: every command that moves the receive state writes the timer with it. -/
theorem stepKeepsInterByteTimer : Obligations.StepKeepsInterByteTimer := by
  intro s t hs ht
  unfold step at ht
  split at ht
  · cases ht
    exact hs
  · rename_i c rest _
    obtain ⟨u, hu, hlaw⟩ := exec_timerAgrees (s := s.setPending rest) c hs
    rw [hu] at ht
    cases ht
    exact hlaw

end Sys2Proof.Machine
end

section
/-! SUPPORT. The bytes of the print link and of the imager's records (R155, R171, R172, R178, R179, R183): lead bytes, numbers, flag
bytes, and frames whose bytes sum to 0. -/

namespace Sys2Proof.Machine

/-! ## Numbers, high byte first -/

theorem pairOf_eq (n : Nat) : pairOf n = twoBytes n := by
  have high : (BitVec.ofNat 16 n).extractLsb' 8 8 = BitVec.ofNat 8 (n / 256) := by
    apply BitVec.eq_of_toNat_eq
    rw [BitVec.extractLsb'_toNat, BitVec.toNat_ofNat, BitVec.toNat_ofNat, Nat.shiftRight_eq_div_pow]
    omega
  have low : (BitVec.ofNat 16 n).extractLsb' 0 8 = BitVec.ofNat 8 n := by
    apply BitVec.eq_of_toNat_eq
    rw [BitVec.extractLsb'_toNat, BitVec.toNat_ofNat, BitVec.toNat_ofNat, Nat.shiftRight_zero]
    omega
  rw [pairOf, bytes16, high, low, twoBytes]

theorem bytes16_eq (x : Half) : bytes16 x = twoBytes x.toNat := by
  rw [← pairOf_eq, pairOf, BitVec.ofNat_toNat, BitVec.setWidth_eq]

theorem be32_toNat (a b c d : Byte) : (be32 a b c d).toNat = (be16 a b).toNat * 65536 + (be16 c d).toNat := by
  have := (be16 c d).isLt
  change (be16 a b ++ be16 c d).toNat = _
  rw [BitVec.toNat_append, ← Nat.shiftLeft_add_eq_or_of_lt this, Nat.shiftLeft_eq]

/-- The two bytes of a length below 65536 read back. -/
theorem be16_twoBytes {n : Nat} (hn : n < 65536) : (be16 (BitVec.ofNat 8 (n / 256)) (BitVec.ofNat 8 n)).toNat = n := by
  rw [be16_toNat, BitVec.toNat_ofNat, BitVec.toNat_ofNat]
  omega

/-! ## Lead bytes (R178) -/

theorem Lead.ofByte_station (b : Byte) : (Lead.ofByte b).station.val = b.toNat / 64 := by
  have := b.isLt
  change (b.extractLsb' 6 2).toNat = _
  rw [BitVec.extractLsb'_toNat, Nat.shiftRight_eq_div_pow]
  omega

theorem Lead.ofByte_code (b : Byte) : (Lead.ofByte b).code.toNat = b.toNat % 32 := by
  change (b.extractLsb' 0 5).toNat = _
  rw [BitVec.extractLsb'_toNat, Nat.shiftRight_zero]

/-- A lead byte is its station, sequence bit and order code side by side. -/
theorem Lead.toByte_ofByte (b : Byte) : (Lead.ofByte b).toByte = b := by
  apply BitVec.eq_of_getLsbD_eq
  intro k hk
  simp only [Lead.toByte, Lead.ofByte, BitVec.ofFin_toFin, BitVec.getLsbD_append, BitVec.getLsbD_extractLsb',
    BitVec.getLsbD_ofBool]
  interval_cases k <;> simp

theorem Lead.ofByte_toByte (l : Lead) : Lead.ofByte l.toByte = l := by
  obtain ⟨station, seq, code⟩ := l
  have hstation (x : BitVec 2) : (x ++ BitVec.ofBool seq ++ code).extractLsb' 6 2 = x := by
    apply BitVec.eq_of_getLsbD_eq
    intro k hk
    simp only [BitVec.getLsbD_extractLsb', BitVec.getLsbD_append]
    interval_cases k <;> simp
  have hseq (x : BitVec 2) : (x ++ BitVec.ofBool seq ++ code).getLsbD 5 = seq := by
    simp only [BitVec.getLsbD_append]
    simp
  have hcode (x : BitVec 2) : (x ++ BitVec.ofBool seq ++ code).extractLsb' 0 5 = code := by
    apply BitVec.eq_of_getLsbD_eq
    intro k hk
    simp only [BitVec.getLsbD_append, BitVec.getLsbD_extractLsb']
    simp [hk]
  simp only [Lead.toByte, Lead.ofByte, hstation, hseq, hcode]

/-! ## Named bits -/

theorem testBit_bits (bits : List Bool) (k : Nat) :
    (bits.foldr (fun (b : Bool) acc => b.toNat + 2 * acc) 0).testBit k = bits.getD k false := by
  induction bits generalizing k with
  | nil => simp
  | cons b bits ih =>
    have half (n : Nat) : (b.toNat + 2 * n) / 2 = n := by
      have := b.toNat_lt
      omega
    cases k with
    | zero => cases b <;> simp [Nat.testBit_zero, Nat.add_mod]
    | succ k => rw [List.foldr_cons, Nat.testBit_succ, half, ih, List.getD_cons_succ]

/-- Bit `k` of a byte of named bits is the `k`th of them. -/
theorem getLsbD_bitsByte (bits : List Bool) {k : Nat} (hk : k < 8) : (bitsByte bits).getLsbD k = bits.getD k false := by
  rw [bitsByte, byteOf, BitVec.getLsbD_ofNat, testBit_bits, decide_eq_true hk, Bool.true_and]

/-! ## Check bytes (R179, R183) -/

/-- The check byte of a frame whose bytes sum to `sum`. -/
def frameCheck (l : Lead) (data : List Byte) (sum : Byte) : Byte :=
  sum - sumBytes (l.toByte :: twoBytes data.length ++ data)

theorem frameBytes_eq (l : Lead) (data : List Byte) (sum : Byte) :
    frameBytes l data sum = l.toByte :: (twoBytes data.length ++ (data ++ [frameCheck l data sum])) := by
  rw [frameBytes, pairOf_eq]
  exact List.append_assoc _ _ _

theorem sumBytes_statusTail (s : State) (l : Lead) (a : Answer) : sumBytes (l.toByte :: s.statusTail l a) = 0 :=
  sumBytes_append_neg (l.toByte :: _)

/-- The check byte of an ending status. -/
def State.statusCheck (s : State) (l : Lead) (a : Answer) : Byte :=
  - sumBytes (l.toByte :: ([a.result.code, a.reason.code, s.summaryFlags l.station a] ++ twoBytes a.reply.length ++ a.reply))

theorem State.statusTail_eq (s : State) (l : Lead) (a : Answer) : s.statusTail l a =
    [a.result.code, a.reason.code, s.summaryFlags l.station a] ++ twoBytes a.reply.length ++ a.reply ++
      [s.statusCheck l a] := by
  rw [State.statusTail, pairOf_eq]
  rfl

/-! ## The summary flags (R172, R175) -/

/-- Some cause of a station is pending and of an enabled kind (R175). -/
def StationCauses.Raised (on : KindSet) (c : StationCauses) : Prop :=
  c.conditionNoted = true ∧ on.conditionNoted = true ∨ c.stopped = true ∧ on.stopped = true ∨
  c.countReached = true ∧ on.countReached = true ∨ c.drained = true ∧ on.drained = true ∨
  c.reportAdded = true ∧ on.reportAdded = true

/-- ATTENTION is pending for a cause of some station or of the device (R175). -/
theorem State.attentionPending_iff (s : State) : s.attentionPending = true ↔
    (∃ i, (s.station i).causes.Raised s.link.enable) ∨
    s.link.causes.imagerChange = true ∧ s.link.enable.imagerChange = true ∨
    s.link.causes.panelChange = true ∧ s.link.enable.panelChange = true := by
  simp only [State.attentionPending, StationCauses.Raised, Bool.or_eq_true, Bool.and_eq_true, Fin.exists_fin_succ,
    IsEmpty.exists_iff, or_false, or_assoc]
  rfl

theorem State.summaryFlags_attention (s : State) (i : StationId) (a : Answer) :
    (s.summaryFlags i a).getLsbD 7 = s.attentionPending := getLsbD_bitsByte _ (by decide)

/-! ## Records to the imager (R155, R183) -/

/-- The break set has bit `w` for window `w` of 0 to 5. -/
theorem breakSet_eq (breaks : List Nat) :
    breakSet breaks = BitVec.ofNat 8 (((List.range 6).map fun w => if w ∈ breaks then 2 ^ w else 0).sum) := by
  have bit (w : Nat) : (breaks.contains w).toNat = if w ∈ breaks then 1 else 0 := by
    by_cases h : w ∈ breaks <;> simp [h]
  have scaled (w : Nat) : (if w ∈ breaks then 2 ^ w else 0) = (if w ∈ breaks then 1 else 0) * 2 ^ w := by
    rw [ite_mul, one_mul, zero_mul]
  simp only [breakSet, bitsByte, byteOf, List.foldr_cons, List.foldr_nil, bit, scaled, List.range_succ, List.range_zero,
    List.nil_append, List.map_append, List.map_cons, List.map_nil, List.sum_append, List.sum_cons, List.sum_nil]
  congr 1
  ring

theorem cellFlags_eq (heavy under second : Bool) : bitsByte [heavy, under, second] =
    (if heavy then 0x01 else 0x00) ||| (if under then 0x02 else 0x00) ||| (if second then 0x04 else 0x00) := by
  cases heavy <;> cases under <;> cases second <;> rfl

/-- A glyph's code, 00h for none. -/
def glyphCode (g : Option Code) : Byte := g.elim 0x00 fun x => BitVec.ofNat 8 x.val

theorem PlacedCell.bytes_eq (c : PlacedCell) : c.bytes = twoBytes c.x ++ [glyphCode c.cell.base,
    (if c.cell.heavy then 0x01 else 0x00) ||| (if c.cell.underscore then 0x02 else 0x00) |||
      (if c.cell.second.isSome then 0x04 else 0x00)] ++
    (if c.cell.second.isSome then [glyphCode c.cell.second] else []) := by
  have base : glyphByte c.cell.base = glyphCode c.cell.base := by cases c.cell.base <;> rfl
  rw [PlacedCell.bytes, pairOf_eq, cellFlags_eq, base]
  cases c.cell.second <;> rfl

/-- A LINE record before its check byte (R183). -/
def LineRecord.body (markBreaks : Bool) (r : LineRecord) : List Byte :=
  [0x02] ++ twoBytes r.y ++
  [BitVec.ofNat 8 (((List.range 6).map fun w => if markBreaks = true ∧ w ∈ r.breaks then 2 ^ w else 0).sum),
    BitVec.ofNat 8 r.cells.length] ++ r.cells.flatMap PlacedCell.bytes

theorem LineRecord.bytes_eq (markBreaks : Bool) (r : LineRecord) :
    r.bytes markBreaks = r.body markBreaks ++ [- sumBytes (r.body markBreaks)] := by
  have breaks : (if markBreaks then breakSet r.breaks else 0) =
      BitVec.ofNat 8 (((List.range 6).map fun w => if markBreaks = true ∧ w ∈ r.breaks then 2 ^ w else 0).sum) := by
    cases markBreaks
    · simp
    · simp [breakSet_eq]
  rw [LineRecord.bytes, pairOf_eq, breaks]
  rfl

theorem zip_map_self {α β γ : Type} (f : α → β) (g : α × β → γ) (l : List α) :
    (l.zip (l.map f)).map g = l.map fun x => g (x, f x) := by
  simpa [Function.comp_def] using congrArg (List.map g) (List.zip_map' (f := id) (g := f) (l := l))

theorem Page.openRecord_layout (i : StationId) (p : Page) : ∃ o, p.openRecord i = [0x01, BitVec.ofNat 8 i.val] ++
    twoBytes p.job.toNat ++ twoBytes p.page.toNat ++ [BitVec.ofNat 8 p.lines.length] ++ twoBytes p.width ++
    twoBytes p.depth ++ [o] := by
  rw [Page.openRecord, bytes16_eq, bytes16_eq, pairOf_eq, pairOf_eq]
  exact ⟨_, rfl⟩

theorem Page.guideRecord_layout (p : Page) : ∃ g, p.guideRecord =
    [0x03] ++ twoBytes p.guideRow ++ guideBytes p.firstPlaced ++ guideBytes p.lastPlaced ++ [g] := by
  rw [Page.guideRecord, pairOf_eq]
  exact ⟨_, rfl⟩

theorem Page.voidRecord_layout (i : StationId) (p : Page) :
    ∃ v, p.voidRecord i = [0x05, BitVec.ofNat 8 i.val] ++ twoBytes p.page.toNat ++ [v] := by
  rw [Page.voidRecord, bytes16_eq]
  exact ⟨_, rfl⟩

theorem sumBytes_of_mem_records {p : Page} {i : StationId} {r : List Byte} (h : r ∈ p.records i) : sumBytes r = 0 := by
  simp only [Page.records, List.mem_append, List.mem_singleton, List.mem_map] at h
  rcases h with ((rfl | ⟨line, -, rfl⟩) | h) | rfl
  · exact sumBytes_withCheck _
  · exact sumBytes_withCheck _
  · split at h
    · simp at h
    · rw [List.mem_singleton.mp h]
      exact sumBytes_withCheck _
  · exact sumBytes_withCheck _

/-- Settles O18: the codec's lemmas one by one, then the flags of a status and the records of a page. -/
theorem framesDecodeAndSum : Obligations.FramesDecodeAndSum := by
  refine ⟨Lead.ofByte_toByte, Lead.toByte_ofByte, fun b => ⟨Lead.ofByte_station b, rfl, Lead.ofByte_code b⟩,
    fun a b c d => ⟨be16_toNat a b, be32_toNat a b c d⟩,
    fun l data sum => ⟨frameCheck l data sum, frameBytes_eq l data sum, sumBytes_frameBytes l data sum⟩,
    ⟨rfl, rfl, fun r => ⟨rfl, rfl⟩⟩, fun s l a => ?status, sumBytes_statusTail, fun p i r => sumBytes_of_mem_records,
    fun p i => sumBytes_withCheck _, fun p i => ?records⟩
  case status =>
    refine ⟨s.summaryFlags l.station a, s.statusCheck l a, ?_⟩
    intro st on result reason
    have hresult : result = a.result.code := rfl
    have hreason : reason = a.reason.code := rfl
    have flag {k : Nat} (hk : k < 8) := getLsbD_bitsByte [a.pageClosed, a.loadStuck, a.duplicate, a.condition, st.overflow,
      st.state == .stopped, !st.holds.isEmpty, s.attentionPending] hk
    have hholds : (!st.holds.isEmpty) = (st.holds.order || st.holds.condition || st.holds.panel) := by
      simp [Holds.isEmpty]
    rw [hresult, hreason, ← s.statusTail_eq l a, s.summaryFlags_attention]
    exact ⟨rfl, rfl, flag (by decide), flag (by decide), flag (by decide), flag (by decide), flag (by decide),
      flag (by decide), (flag (by decide)).trans hholds, s.attentionPending_iff⟩
  case records =>
    intro glyph cell breaks line guide
    have hcell : cell = PlacedCell.bytes := funext fun c => c.bytes_eq.symm
    have hline (r : LineRecord) : line r = r.body p.markBreaks := by
      simp only [line, hcell]
      rfl
    have hguide (g : Option PlacedGuide) : guide g = guideBytes g := by
      cases g with
      | none => rfl
      | some g => simp only [guide, guideBytes, pairOf_eq, byteOf]
    obtain ⟨o, hopen⟩ := p.openRecord_layout i
    obtain ⟨g, hguides⟩ := p.guideRecord_layout
    obtain ⟨v, hvoid⟩ := p.voidRecord_layout i
    refine ⟨o, - sumBytes [0x04, BitVec.ofNat 8 p.lines.length], v, p.lines.map fun r => - sumBytes (r.body p.markBreaks),
      if p.firstPlaced.isNone && p.lastPlaced.isNone then [] else [p.guideRecord], List.length_map _, ?_, fun hf hl => ?_,
      fun h => ⟨g, ?_⟩, hvoid⟩
    · have lines : p.lines.map (LineRecord.bytes p.markBreaks) =
          p.lines.map fun r => line r ++ [- sumBytes (r.body p.markBreaks)] :=
        List.map_congr_left fun r _ => by rw [hline, r.bytes_eq]
      rw [zip_map_self, Page.records, hopen, lines]
      rfl
    · rw [hf, hl]
      rfl
    · have hnot : (p.firstPlaced.isNone && p.lastPlaced.isNone) = false := by
        rcases h with h | h <;> simp [← Option.not_isSome, h]
      rw [hnot, hguide, hguide, hguides]
      rfl

end Sys2Proof.Machine
end

section
/-! SUPPORT. An order row is the bytes of its frame (R167, R168): what an order does does not depend on the receive state it is
taken in, so the byte that completes the frame finds it doing the same. -/

namespace Sys2Proof.Machine

variable {s : State} {i : StationId} {r : Receive} {b : Bool}

/-! ## Orders do not see the receive state -/

/-- The outcome `y` is the outcome `x` in receive state `r` with the timer at `b`. -/
def Blind (r : Receive) (b : Bool) (x y : State × Answer) : Prop := y = (x.1.setReceive r b, x.2)

theorem Blind.same (a : Answer) : Blind r b (s, a) (s.setReceive r b, a) := rfl

theorem Blind.ite {p : Prop} [Decidable p] {x x' y y' : State × Answer} (h : Blind r b x y) (h' : Blind r b x' y') :
    Blind r b (if p then x else x') (if p then y else y') := by
  split
  · exact h
  · exact h'

theorem Blind.stationOrder (params : List Byte) (f : Byte → Byte → Byte → Byte → Station → Station × Answer) :
    Blind r b (s.stationOrder i params f) ((s.setReceive r b).stationOrder i params f) := by
  unfold State.stationOrder
  split
  · rfl
  · exact .same _

theorem orderPrint_blind (seq : Bool) (data : List Byte) :
    Blind r b (orderPrint i seq data s) (orderPrint i seq data (s.setReceive r b)) := by
  cases data <;> rfl

theorem orderMove_blind (seq : Bool) (data : List Byte) :
    Blind r b (orderMove i seq data s) (orderMove i seq data (s.setReceive r b)) := by
  unfold orderMove
  split
  · rfl
  · exact .same _

theorem orderSelect_blind (data : List Byte) :
    Blind r b (orderSelect i data s) (orderSelect i data (s.setReceive r b)) := by
  unfold orderSelect
  split
  · split
    · exact .ite (.same _) <| .ite (.same _) <| .ite (.same _) <| .ite (.same _) rfl
    · exact .same _
  · exact .same _

theorem orderPark_blind (params : List Byte) :
    Blind r b (orderPark i params s) (orderPark i params (s.setReceive r b)) := by
  unfold orderPark
  split
  · split
    · exact .same _
    · exact .ite (.same _) <| .ite (.same _) <| .ite (.same _) rfl
  · exact .same _

theorem orderResume_blind (params : List Byte) :
    Blind r b (orderResume i params s) (orderResume i params (s.setReceive r b)) := by
  unfold orderResume
  split
  · split
    · exact .same _
    · rename_i k _
      refine .ite (.same _) <| .ite (.same _) <| .ite (.same _) ?_
      rw [State.setReceive_parks]
      cases s.parks[k] <;> rfl
  · exact .same _

theorem orderStation_blind (data : List Byte) :
    Blind r b (orderStation i data s) (orderStation i data (s.setReceive r b)) := by
  unfold orderStation
  refine .ite (.same _) ?_
  cases data with
  | nil => exact .same _
  | cons f params =>
    exact .ite (.stationOrder ..) <| .ite (.stationOrder ..) <| .ite (.stationOrder ..) <| .ite (.stationOrder ..) <|
      .ite (.stationOrder ..) <| .ite (.stationOrder ..) <| .ite (orderPark_blind _) <| .ite (orderResume_blind _) <|
      .ite (.stationOrder ..) <| .ite (.stationOrder ..) <| .ite (.stationOrder ..) (.same _)

/-! ### The loads -/

theorem orderLoadDrum_blind (data : List Byte) :
    Blind r b (orderLoadDrum data s) (orderLoadDrum data (s.setReceive r b)) := by
  unfold orderLoadDrum
  split
  · split
    · exact .same _
    · split
      · exact .ite (.same _) <| .ite (.same _) rfl
      · exact .same _
  · exact .same _

theorem orderLoadTape_blind (data : List Byte) :
    Blind r b (orderLoadTape data s) (orderLoadTape data (s.setReceive r b)) := by
  unfold orderLoadTape
  split
  · split
    · exact .same _
    · split
      · exact .ite (.same _) <| .ite (.same _) <| .ite (.same _) <| .ite (.same _) rfl
      · exact .same _
  · exact .same _

theorem orderLoadLayout_blind (data : List Byte) :
    Blind r b (orderLoadLayout data s) (orderLoadLayout data (s.setReceive r b)) := by
  unfold orderLoadLayout
  split
  · refine .ite (.same _) ?_
    split
    · exact .ite (.same _) <| .ite (.same _) rfl
    · exact .same _
  · exact .same _

theorem orderLoadCollation_blind (data : List Byte) :
    Blind r b (orderLoadCollation data s) (orderLoadCollation data (s.setReceive r b)) := by
  unfold orderLoadCollation
  split
  · refine .ite (.same _) ?_
    split
    · exact .same _
    · exact .ite (.same _) rfl
  · exact .same _

theorem orderLoadConditions_blind (data : List Byte) :
    Blind r b (orderLoadConditions data s) (orderLoadConditions data (s.setReceive r b)) := by
  unfold orderLoadConditions
  refine .ite (.same _) ?_
  split
  · exact .same _
  · rfl

theorem orderLibraryClear_blind (params : List Byte) :
    Blind r b (orderLibraryClear params s) (orderLibraryClear params (s.setReceive r b)) := by
  unfold orderLibraryClear
  split
  · refine .ite ?_ <| .ite ?_ <| .ite ?_ <| .ite ?_ (.same _)
    all_goals
      split
      · exact .same _
      · exact .ite (.same _) rfl
  · exact .same _

/-! ### Reading orders and DEVICE orders -/

theorem orderSense_blind (data : List Byte) :
    Blind r b (orderSense i data s) (orderSense i data (s.setReceive r b)) := by
  unfold orderSense
  split
  · rfl
  · exact .same _

theorem orderReport_blind (data : List Byte) :
    Blind r b (orderReport i data s) (orderReport i data (s.setReceive r b)) := by
  unfold orderReport
  split
  · rfl
  · exact .same _

theorem orderAttentionSetup_blind (params : List Byte) :
    Blind r b (orderAttentionSetup params s) (orderAttentionSetup params (s.setReceive r b)) := by
  unfold orderAttentionSetup
  split
  · split
    · exact .same _
    · exact .ite rfl (.same _)
  · exact .same _

theorem State.spoilFlight_setReceive (timeout : Bool) (d : PortState) :
    (s.setReceive r b).spoilFlight timeout d = (s.spoilFlight timeout d).setReceive r b := by
  have hf : (s.setReceive r b).flightPage = s.flightPage := rfl
  unfold State.spoilFlight
  rw [hf]
  split <;> rfl

theorem State.readyMove_setReceive (level : Bool) :
    (s.setReceive r b).readyMove level = (s.readyMove level).setReceive r b := by
  have hp : (s.setReceive r b).port = s.port := rfl
  unfold State.readyMove
  rw [hp]
  split
  · rfl
  · rfl
  · rfl
  · split
    · exact State.spoilFlight_setReceive ..
    · rfl
  · exact State.spoilFlight_setReceive ..
  · exact State.spoilFlight_setReceive ..
  · rfl

theorem State.faultMove_setReceive (level : Bool) :
    (s.setReceive r b).faultMove level = (s.faultMove level).setReceive r b := by
  have hp : (s.setReceive r b).port = s.port := rfl
  unfold State.faultMove
  rw [hp]
  split
  · rfl
  · rfl
  · split
    · exact State.spoilFlight_setReceive ..
    · rfl
  · exact State.spoilFlight_setReceive ..
  · exact State.spoilFlight_setReceive ..
  · rfl

theorem State.lineEffect_setReceive (l : Line) (level : Bool) :
    (s.setReceive r b).lineEffect l level = (s.lineEffect l level).setReceive r b := by
  cases l with
  | ready => exact State.readyMove_setReceive level
  | fault => exact State.faultMove_setReceive level
  | _ => rfl

theorem State.setDebounced_setReceive (l : Line) (level : Bool) :
    (s.setReceive r b).setDebounced l level = (s.setDebounced l level).setReceive r b := by
  unfold State.setDebounced
  rw [State.setReceive_port]
  split
  · rfl
  · rw [← State.lineEffect_setReceive]
    dsimp only [State.setReceive]
    split <;> rfl

theorem State.takeRaw_setReceive (l : Line) : (s.setReceive r b).takeRaw l = (s.takeRaw l).setReceive r b := by
  unfold State.takeRaw
  rw [State.setReceive_port]
  split
  · exact State.setDebounced_setReceive l _
  · rfl

theorem State.applySetup_setReceive (x : ImagerSetup) :
    (s.setReceive r b).applySetup x = (s.applySetup x).setReceive r b :=
  List.foldl_hom (State.setReceive · r b) (g₁ := State.takeRaw) (l := linesInFieldOrder) (init := s.withSetup x)
    fun _ l => State.takeRaw_setReceive l

theorem orderImagerSetup_blind (params : List Byte) :
    Blind r b (orderImagerSetup params s) (orderImagerSetup params (s.setReceive r b)) := by
  unfold orderImagerSetup
  refine .ite (.same _) ?_
  split
  · exact .same _
  · rw [Blind, State.applySetup_setReceive]

theorem orderDeviceClear_blind (params : List Byte) :
    Blind r b (orderDeviceClear params s) (orderDeviceClear params (s.setReceive r b)) := by
  cases params <;> rfl

theorem orderDevice_blind (data : List Byte) :
    Blind r b (orderDevice data s) (orderDevice data (s.setReceive r b)) := by
  cases data with
  | nil => exact .same _
  | cons f params =>
    exact .ite (orderAttentionSetup_blind _) <| .ite (orderImagerSetup_blind _) <| .ite (orderDeviceClear_blind _) <|
      .ite (orderLibraryClear_blind _) (.same _)

/-- No order sees the receive state it is taken in. -/
theorem carryOut_blind (l : Lead) (data : List Byte) :
    Blind r b (carryOut l data s) (carryOut l data (s.setReceive r b)) :=
  .ite (orderPrint_blind ..) <| .ite (orderMove_blind ..) <| .ite (orderSelect_blind _) <|
    .ite (orderLoadDrum_blind _) <| .ite (orderLoadTape_blind _) <| .ite (orderLoadLayout_blind _) <|
    .ite (orderLoadCollation_blind _) <| .ite (orderLoadConditions_blind _) <| .ite (orderStation_blind _) <|
    .ite (orderSense_blind _) <| .ite (orderReport_blind _) <| .ite (orderDevice_blind _) <|
    .ite rfl (.same _)

/-- A frame is answered alike in every receive state: the owed status takes the place of whatever stood there. -/
theorem State.answerFrame_setReceive (l : Lead) (data : List Byte) (sum : Byte) :
    (s.setReceive r b).answerFrame l data sum = s.answerFrame l data sum := by
  by_cases hs : sum = 0
  · rw [hs, State.answerFrame_right, State.answerFrame_right, carryOut_blind l data]
    rfl
  · rw [State.answerFrame_wrong hs, State.answerFrame_wrong hs]
    rfl

/-! ## The bytes of a frame one by one -/

theorem execAll_cons {c : Instr} {cs : List Instr} {t : State} (h : exec c s = .next t) :
    execAll (c :: cs) s = execAll cs t := by
  rw [execAll, h]

theorem execAll_byteTaken_cons (hd : s.choiceDue = false) (x : Byte) (bytes : List Byte) :
    execAll ((x :: bytes).map Instr.byteTaken) s = execAll (bytes.map Instr.byteTaken) (s.takeByte x) :=
  execAll_cons (exec_byteTaken hd x)

/-- Bytes of a frame under way leave no choice of the arbiter due. -/
theorem execAll_setReceive_cons (hd : s.choiceDue = false) (r : Receive) (b : Bool) (x : Byte) (bytes : List Byte) :
    execAll ((x :: bytes).map Instr.byteTaken) (s.setReceive r b) =
      execAll (bytes.map Instr.byteTaken) ((s.setReceive r b).takeByte x) :=
  execAll_byteTaken_cons (s := s.setReceive r b) hd x bytes

/-- Data bytes within the frame's length are kept one after another (R168). -/
theorem execAll_data {lead hi lo : Byte} (hd : s.choiceDue = false) (hn : (be16 hi lo).toNat ≤ 1023) (rest : List Byte) :
    ∀ (data more : List Byte), more.length + data.length ≤ (be16 hi lo).toNat →
      execAll ((data ++ rest).map Instr.byteTaken) (s.setReceive (.receiving lead (hi :: lo :: more)) true) =
        execAll (rest.map Instr.byteTaken) (s.setReceive (.receiving lead (hi :: lo :: (more ++ data))) true)
  | [], more, _ => by rw [List.nil_append, List.append_nil]
  | x :: data, more, hlen => by
    rw [List.length_cons] at hlen
    have hfit : (more ++ [x]).length ≠ (be16 hi lo).toNat + 1 := by
      rw [List.length_append, List.length_singleton]
      omega
    have htake : (s.setReceive (.receiving lead (hi :: lo :: more)) true).takeByte x =
        s.setReceive (.receiving lead (hi :: lo :: (more ++ [x]))) true := by
      rw [State.takeByte_receiving (State.setReceive_receive ..), List.cons_append, List.cons_append,
        State.frameByte_within _ _ hn hfit, State.setReceive_setReceive]
    rw [List.cons_append, execAll_setReceive_cons hd, htake, execAll_data hd hn rest data (more ++ [x]) (by simp; omega),
      List.append_assoc, List.singleton_append]

/-- The bytes of a frame, taken one by one on a link that awaits it, have the frame answered (R168, R170). -/
theorem execAll_frameBytes (l : Lead) {data : List Byte} (sum : Byte) (hd : s.choiceDue = false)
    (ha : s.link.receive = .awaitLead) (hl : data.length ≤ 1023) :
    execAll ((frameBytes l data sum).map Instr.byteTaken) s = .next (s.answerFrame l data sum) := by
  have hsum := sumBytes_frameBytes l data sum
  have hlen := be16_twoBytes (show data.length < 65536 by omega)
  rw [frameBytes_eq] at hsum ⊢
  rw [twoBytes, List.cons_append, List.cons_append, List.nil_append] at hsum ⊢
  generalize (BitVec.ofNat 8 (data.length / 256) : Byte) = hi at *
  generalize (BitVec.ofNat 8 data.length : Byte) = lo at *
  have hn : (be16 hi lo).toNat ≤ 1023 := hlen ▸ hl
  have hfirst : (s.setReceive (.receiving l.toByte []) true).takeByte hi =
      s.setReceive (.receiving l.toByte [hi]) true := rfl
  have hsecond : (s.setReceive (.receiving l.toByte [hi]) true).takeByte lo =
      s.setReceive (.receiving l.toByte [hi, lo]) true := by
    rw [State.takeByte_receiving (State.setReceive_receive ..), List.singleton_append, State.frameByte_length,
      if_neg (Nat.not_lt.mpr hn), State.setReceive_setReceive]
  have hlast : (s.setReceive (.receiving l.toByte (hi :: lo :: data)) true).takeByte (frameCheck l data sum) =
      s.answerFrame l data sum := by
    rw [State.takeByte_receiving (State.setReceive_receive ..), List.cons_append, List.cons_append,
      State.frameByte_complete _ _ _ hn hlen.symm, hsum, Lead.ofByte_toByte, State.answerFrame_setReceive]
  rw [execAll_byteTaken_cons hd, State.takeByte_awaitLead ha, execAll_setReceive_cons hd, hfirst,
    execAll_setReceive_cons hd, hsecond, execAll_data hd hn _ data [] (by simp [hlen]),
    List.nil_append, execAll_setReceive_cons hd, hlast]
  rfl

/-- The first command finds a due choice made. -/
theorem execAll_byteTaken_arbitrate (x : Byte) (cs : List Instr) (s : State) :
    execAll (.byteTaken x :: cs) s = execAll (.byteTaken x :: cs) s.arbitrate := by
  rw [execAll_cons (t := s.arbitrate.takeByte x) rfl, execAll_cons (exec_byteTaken s.arbitrate_not_due x)]

/-- Settles O14: row and bytes both come to the frame answered, after the choice if one is due. -/
theorem orderIsItsBytes : Obligations.OrderIsItsBytes := by
  intro c f s hc ha hl
  have ha' : s.arbitrate.link.receive = .awaitLead := by rw [State.arbitrate_link, ha]
  rw [exec_of_orderFrame hc ha hl, ← execAll_frameBytes f.lead f.sum s.arbitrate_not_due ha' hl, frameBytes_eq, List.map_cons,
    ← execAll_byteTaken_arbitrate]

end Sys2Proof.Machine
end

section
/-! SUPPORT. Frames of a length their order does not allow (R170 step 2, R179), one lemma for each kind of length. -/

namespace Sys2Proof.Machine

variable {s : State} {i : StationId} {data params : List Byte}

/-! ## Orders of a fixed length -/

theorem orderPrint_badLength (seq : Bool) (h : data.length = 0) : orderPrint i seq data s = (s, .refused .badLength) := by
  rw [List.length_eq_zero_iff.mp h]
  rfl

theorem orderMove_badLength (seq : Bool) (h : data.length ≠ 1) : orderMove i seq data s = (s, .refused .badLength) := by
  unfold orderMove
  split
  · exact absurd rfl h
  · rfl

theorem orderSelect_badLength (h : data.length ≠ 4) : orderSelect i data s = (s, .refused .badLength) := by
  unfold orderSelect
  split
  · exact absurd rfl h
  · rfl

theorem orderLoadCollation_badLength (h : data.length ≠ 252) : orderLoadCollation data s = (s, .refused .badLength) := by
  cases data with
  | nil => rfl
  | cons e weights => exact if_pos fun hw => h (by rw [List.length_cons, hw])

theorem orderLoadConditions_badLength (h : data.length ≠ 16) : orderLoadConditions data s = (s, .refused .badLength) :=
  if_pos h

theorem orderSense_badLength (h : data.length ≠ 1) : orderSense i data s = (s, .refused .badLength) := by
  unfold orderSense
  split
  · exact absurd rfl h
  · rfl

theorem orderReport_badLength (h : data.length ≠ 1) : orderReport i data s = (s, .refused .badLength) := by
  unfold orderReport
  split
  · exact absurd rfl h
  · rfl

theorem orderAttentionSetup_badLength (h : params.length ≠ 2) :
    orderAttentionSetup params s = (s, .refused .badLength) := by
  unfold orderAttentionSetup
  split
  · exact absurd rfl h
  · rfl

theorem orderImagerSetup_badLength (h : params.length ≠ 12) : orderImagerSetup params s = (s, .refused .badLength) :=
  if_pos h

theorem orderDeviceClear_badLength (h : params.length ≠ 0) : orderDeviceClear params s = (s, .refused .badLength) := by
  cases params with
  | nil => exact absurd rfl h
  | cons => rfl

theorem orderLibraryClear_badLength (h : params.length ≠ 2) : orderLibraryClear params s = (s, .refused .badLength) := by
  unfold orderLibraryClear
  split
  · exact absurd rfl h
  · rfl

/-! ## Loads of 2-byte elements -/

/-- An odd number of bytes is no list of 2-byte elements. -/
theorem elementPairs_odd : ∀ {bytes : List Byte}, bytes.length % 2 ≠ 0 → elementPairs bytes = none
  | [], h => absurd rfl h
  | [_], _ => rfl
  | a :: b :: rest, h => by
    rw [List.length_cons, List.length_cons] at h
    rw [elementPairs, elementPairs_odd (bytes := rest) (by omega)]
    rfl

theorem elementLength_eq_false {base n : Nat} (hn : n ≤ 1023) (h : elementLength base n = false) :
    n < base ∨ (n - base) % 2 ≠ 0 := by
  by_contra hc
  rw [not_or, not_lt, not_not] at hc
  obtain ⟨hb, hm⟩ := hc
  simp [elementLength, hb, hm, hn] at h

theorem orderLoadDrum_badLength (hl : data.length ≤ 1023) (h : elementLength 2 data.length = false) :
    orderLoadDrum data s = (s, .refused .badLength) := by
  have hbad := elementLength_eq_false hl h
  unfold orderLoadDrum
  split
  · rw [elementPairs_odd (by simp at hbad; omega)]
  · rfl

theorem orderLoadTape_badLength (hl : data.length ≤ 1023) (h : elementLength 5 data.length = false) :
    orderLoadTape data s = (s, .refused .badLength) := by
  have hbad := elementLength_eq_false hl h
  unfold orderLoadTape
  split
  · rw [elementPairs_odd (by simp at hbad; omega)]
  · rfl

/-! ## LOAD LAYOUT -/

/-- A layout's length follows its column count, data byte 14 (R180). -/
theorem orderLoadLayout_badLength (h : layoutLength data = false) : orderLoadLayout data s = (s, .refused .badLength) := by
  unfold orderLoadLayout
  split
  · rename_i c f rest
    refine if_pos ?_
    by_contra hc
    simp only [not_or, not_lt, not_not] at hc
    obtain ⟨hlow, hhigh, hrest⟩ := hc
    simp [layoutLength, hlow, hhigh, hrest] at h
    omega
  · rfl

/-! ## Every order -/

/-- A frame whose data has a length its order does not allow is turned away, and nothing changes. -/
theorem carryOut_badLength {c : Instr} {f : OrderFrame} (hc : orderFrame c = some f) (hl : f.data.length ≤ 1023)
    (hw : c.wellFormed = false) (s : State) : carryOut f.lead f.data s = (s, .refused .badLength) := by
  have station {h : Head} {sub : Byte} {p : List Byte} (hp : (p.length == 4) = false) :
      carryOut (leadOf h 0x09) (sub :: p) s = (s, .refused .badLength) :=
    orderStation_badLength _ s (by simpa using hp)
  cases c <;> cases hc
  case print h d =>
    have hempty : d.length = 0 := by
      have hw : (decide (1 ≤ d.length) && decide (d.length ≤ 1023)) = false := hw
      have hl : d.length ≤ 1023 := hl
      simp only [hl, decide_true, Bool.and_true, decide_eq_false_iff_not] at hw
      omega
    exact orderPrint_badLength _ hempty
  case move h d => exact orderMove_badLength _ (ne_of_beq_false hw)
  case select h d => exact orderSelect_badLength (ne_of_beq_false hw)
  case loadDrum h d => exact orderLoadDrum_badLength hl hw
  case loadTape h d => exact orderLoadTape_badLength hl hw
  case loadLayout h d => exact orderLoadLayout_badLength hw
  case loadCollation h d => exact orderLoadCollation_badLength (ne_of_beq_false hw)
  case loadConditions h d => exact orderLoadConditions_badLength (ne_of_beq_false hw)
  case sense h d => exact orderSense_badLength (ne_of_beq_false hw)
  case report h d => exact orderReport_badLength (ne_of_beq_false hw)
  case echo h d => exact absurd hl (of_decide_eq_false hw)
  case attentionSetup h p => exact orderAttentionSetup_badLength (ne_of_beq_false hw)
  case imagerSetup h p => exact orderImagerSetup_badLength (ne_of_beq_false hw)
  case deviceClear h p => exact orderDeviceClear_badLength (ne_of_beq_false hw)
  case libraryClear h p => exact orderLibraryClear_badLength (ne_of_beq_false hw)
  all_goals exact station hw

/-- Settles O17: the check byte is judged before the length. -/
theorem unfitFramesAnswered : Obligations.UnfitFramesAnswered := by
  intro c f s hc ha hd hl
  rw [exec_of_orderFrame hc ha hl, State.arbitrate_of_not_due _ hd]
  refine ⟨fun hs => ?_, fun hs hw => ?_⟩
  · rw [State.answerFrame_wrong hs]
  · rw [hs, State.answerFrame_refused (carryOut_badLength hc hl hw s)]

end Sys2Proof.Machine
end

section
/-! SUPPORT. The reading orders and ATTENTION SETUP (R25, R173, R174, R176): the SENSE reply and the page summary byte by byte
(R182). -/

namespace Sys2Proof.Machine

variable {s : State} {h : Head} {r r' x : List Byte} {k : Nat}

/-! ## Bytes that stand in a reply -/

/-- The bytes `x` stand in `r` from offset `k` on. -/
def StandsAt (r : List Byte) (k : Nat) (x : List Byte) : Prop := ∃ rest, r.drop k = x ++ rest

theorem StandsAt.get (hx : StandsAt r k x) {j : Nat} (hj : j < x.length) : byteAt r (k + j) = byteAt x j := by
  obtain ⟨rest, hrest⟩ := hx
  rw [byteAt, byteAt, List.getD_eq_getElem?_getD, ← List.getElem?_drop, hrest, List.getElem?_append_left hj,
    List.getD_eq_getElem?_getD]

theorem StandsAt.byteAt_eq {c : Byte} (hx : StandsAt r k [c]) : byteAt r k = c := hx.get (j := 0) Nat.zero_lt_one

theorem StandsAt.bitsAt_eq {bits : List Bool} (hx : StandsAt r k [bitsByte bits]) :
    bitsAt r k = (List.range 8).map fun j => bits.getD j false := by
  rw [bitsAt, hx.byteAt_eq]
  exact List.map_congr_left fun j hj => getLsbD_bitsByte bits (List.mem_range.mp hj)

theorem StandsAt.halfAt_eq {v : Half} (hx : StandsAt r k (bytes16 v)) : halfAt r k = v := by
  have byte {j : Nat} (hj : j < 2) : byteAt r (k + j) = byteAt (bytes16 v) j := hx.get hj
  have h0 : byteAt r k = v.extractLsb' 8 8 := byte (j := 0) (by decide)
  have h1 : byteAt r (k + 1) = v.extractLsb' 0 8 := byte (j := 1) (by decide)
  rw [halfAt, h0, h1, BitVec.extractLsb'_append_extractLsb'_eq_extractLsb' (by decide)]
  exact BitVec.extractLsb'_eq_self

theorem StandsAt.wordAt_eq {v : Word} (hx : StandsAt r k (bytes32 v)) : wordAt r k = v := by
  have byte {j : Nat} (hj : j < 4) : byteAt r (k + j) = byteAt (bytes32 v) j := hx.get hj
  have h0 : byteAt r k = v.extractLsb' 24 8 := byte (j := 0) (by decide)
  have h1 : byteAt r (k + 1) = v.extractLsb' 16 8 := byte (j := 1) (by decide)
  have h2 : byteAt r (k + 2) = v.extractLsb' 8 8 := byte (j := 2) (by decide)
  have h3 : byteAt r (k + 2 + 1) = v.extractLsb' 0 8 := byte (j := 3) (by decide)
  rw [wordAt, halfAt, halfAt, h0, h1, h2, h3, BitVec.extractLsb'_append_extractLsb'_eq_extractLsb' (by decide),
    BitVec.extractLsb'_append_extractLsb'_eq_extractLsb' (by decide),
    BitVec.extractLsb'_append_extractLsb'_eq_extractLsb' (by decide)]
  exact BitVec.extractLsb'_eq_self

theorem StandsAt.self (x : List Byte) : StandsAt x 0 x := ⟨[], (List.append_nil x).symm⟩

theorem StandsAt.append_left (hx : StandsAt r k x) (r' : List Byte) : StandsAt (r ++ r') k x := by
  obtain ⟨rest, hrest⟩ := hx
  exact ⟨rest ++ r'.drop (k - r.length), by rw [List.drop_append, hrest, List.append_assoc]⟩

theorem StandsAt.append_right {n : Nat} (hn : r.length = n) (hx : StandsAt r' k x) : StandsAt (r ++ r') (n + k) x := by
  obtain ⟨rest, hrest⟩ := hx
  exact ⟨rest, by rw [← hn, List.drop_length_add_append, hrest]⟩

/-! ## The SENSE reply (R182) -/

theorem selectionByte_eq {n : Nat} (o : Option (Fin n)) :
    selectionByte o = (o.map Fin.val).elim 0xFE (BitVec.ofNat 8) := by cases o <;> rfl

theorem entryBytes_length (o : Option CondEntry) : (entryBytes o).length = 6 := by cases o <;> rfl

/-- The six bytes of no condition entry. -/
theorem StandsAt.entry_none (hx : StandsAt r k (entryBytes none)) :
    byteAt r k = 0xFF ∧ ∀ j, 1 ≤ j → j ≤ 5 → byteAt r (k + j) = 0x00 := by
  refine ⟨hx.get (j := 0) (by decide), fun j h1 h5 => ?_⟩
  rw [hx.get (Nat.lt_succ_of_le h5)]
  interval_cases j <;> rfl

/-- The six bytes of a condition entry. -/
theorem StandsAt.entry_some {e : CondEntry} (hx : StandsAt r k (entryBytes (some e))) :
    byteAt r k = BitVec.ofNat 8 e.kind.number.val ∧ halfAt r (k + 1) = e.page ∧ byteAt r (k + 3) = BitVec.ofNat 8 e.line ∧
    byteAt r (k + 4) = e.position.elim 0x00 (BitVec.ofNat 8) ∧ byteAt r (k + 5) = e.column.elim 0xFF (BitVec.ofNat 8) := by
  have field {j : Nat} (hj : j < 6) : byteAt r (k + j) = byteAt (entryBytes (some e)) j :=
    hx.get (hj.trans_eq (entryBytes_length _).symm)
  have hpage : StandsAt r (k + 1) (bytes16 e.page) := by
    obtain ⟨rest, hrest⟩ := hx
    exact ⟨_, by rw [← List.drop_drop, hrest]; rfl⟩
  refine ⟨field (j := 0) (by decide), hpage.halfAt_eq, field (j := 3) (by decide), (field (j := 4) (by decide)).trans ?_,
    (field (j := 5) (by decide)).trans ?_⟩
  · change byteOf (e.position.getD 0) = _
    cases e.position <;> rfl
  · change (match e.column with
      | none => 0xFF
      | some c => byteOf c) = _
    cases e.column <;> rfl

theorem length_flatMap_pairOf (l : List Nat) : (l.flatMap pairOf).length = 2 * l.length := by
  induction l with
  | nil => rfl
  | cons n l ih =>
    rw [List.flatMap_cons, List.length_append, ih, List.length_cons]
    change 2 + _ = _
    omega

theorem standsAt_flatMap_pairOf {l : List Nat} (hk : k < l.length) : StandsAt (l.flatMap pairOf) (2 * k) (pairOf l[k]) := by
  induction l generalizing k with
  | nil => exact absurd hk (Nat.not_lt_zero k)
  | cons n l ih =>
    cases k with
    | zero => exact ⟨_, rfl⟩
    | succ k =>
      rw [Nat.mul_succ, Nat.add_comm]
      exact .append_right rfl (ih (Nat.lt_of_succ_lt_succ hk))

/-- The station's state, selections and page in the context's part of the reply. -/
theorem Station.senseContext_state (st : Station) : StandsAt st.senseContext 0 [st.state.code] ∧
    StandsAt st.senseContext 1 [bitsByte [st.holds.order, st.holds.condition, st.holds.panel]] ∧
    StandsAt st.senseContext 2 [st.stopCode.code] ∧ StandsAt st.senseContext 3 [selectionByte st.sel.drum] ∧
    StandsAt st.senseContext 4 [selectionByte st.sel.tape] ∧ StandsAt st.senseContext 5 [selectionByte st.sel.layout] ∧
    StandsAt st.senseContext 6 [selectionByte st.sel.coll] ∧ StandsAt st.senseContext 7 [byteOf st.line] ∧
    StandsAt st.senseContext 8
      [bitsByte [st.overflow, st.expected, st.carry.isSome, st.hasStrikes, st.openPage.isSome]] ∧
    StandsAt st.senseContext 9 [byteOf st.openLines] ∧ StandsAt st.senseContext 10 (bytes16 st.page) ∧
    StandsAt st.senseContext 12 (bytes16 st.job) :=
  ⟨⟨_, rfl⟩, ⟨_, rfl⟩, ⟨_, rfl⟩, ⟨_, rfl⟩, ⟨_, rfl⟩, ⟨_, rfl⟩, ⟨_, rfl⟩, ⟨_, rfl⟩, ⟨_, rfl⟩, ⟨_, rfl⟩, ⟨_, rfl⟩, ⟨_, rfl⟩⟩

/-- The counters and the match value in the context's part of the reply. -/
theorem Station.senseContext_words (st : Station) :
    StandsAt st.senseContext 14 (bytes32 st.counters.lines) ∧ StandsAt st.senseContext 18 (bytes32 st.counters.listings) ∧
    StandsAt st.senseContext 22 (bytes32 st.counters.closed) ∧ StandsAt st.senseContext 26 (bytes32 st.counters.imaged) ∧
    StandsAt st.senseContext 33 (bytes32 st.matchValue) :=
  ⟨⟨_, rfl⟩, ⟨_, rfl⟩, ⟨_, rfl⟩, ⟨_, rfl⟩, ⟨_, rfl⟩⟩

/-- The settings in the context's part of the reply. -/
theorem Station.senseContext_settings (st : Station) :
    StandsAt st.senseContext 30 [byteOf st.quota] ∧ StandsAt st.senseContext 31 [byteOf st.timerSetting] ∧
    StandsAt st.senseContext 32 [st.idle.code] := ⟨⟨_, rfl⟩, ⟨_, rfl⟩, ⟨_, rfl⟩⟩

theorem Station.senseRecord_length (st : Station) : st.senseRecord.length = 49 := by
  simp only [Station.senseRecord, List.length_append, entryBytes_length, length_flatMap_pairOf, Vector.length_toList,
    List.length_cons, List.length_nil]

theorem State.senseReply_context (i : StationId) (hx : StandsAt (s.station i).senseContext k x) :
    StandsAt (s.senseReply i) k x := (hx.append_left _).append_left _

theorem State.senseReply_record (i : StationId) (hx : StandsAt (s.station i).senseRecord k x) :
    StandsAt (s.senseReply i) (37 + k) x := (StandsAt.append_right rfl hx).append_left _

theorem State.senseReply_device (i : StationId) (hx : StandsAt s.senseDevice k x) :
    StandsAt (s.senseReply i) (86 + k) x :=
  .append_right (by rw [List.length_append, Station.senseRecord_length]; rfl) hx

theorem Station.senseRecord_first (st : Station) : StandsAt st.senseRecord 0 (entryBytes st.record.first) :=
  (((StandsAt.self _).append_left _).append_left _).append_left _

theorem Station.senseRecord_last (st : Station) : StandsAt st.senseRecord 6 (entryBytes st.record.last) :=
  ((StandsAt.append_right (entryBytes_length _) (.self _)).append_left _).append_left _

/-- The condition counts stand in the record from its offset 12 on, two bytes each. -/
theorem Station.senseRecord_counts (st : Station) (k : Fin 16) :
    StandsAt st.senseRecord (12 + 2 * k.val) (pairOf st.record.counts[k]) := by
  have hk : k.val < st.record.counts.toList.length := by simp
  have hcounts := standsAt_flatMap_pairOf hk
  rw [Vector.getElem_toList] at hcounts
  exact (StandsAt.append_right (by simp [entryBytes_length]) hcounts).append_left _

theorem Station.senseRecord_slots (st : Station) (hx : StandsAt
    [byteOf (if st.openPage.isSome then 1 else 0), byteOf (st.slotsIn .waiting), byteOf (st.slotsIn .sending),
      byteOf (st.slotsIn .awaiting), byteOf (st.slotsIn .spoiled)] k x) : StandsAt st.senseRecord (44 + k) x :=
  .append_right (by simp only [List.length_append, entryBytes_length, length_flatMap_pairOf, Vector.length_toList]) hx

/-- The park slots, the port, the lines and the attention setup in the device's part of the reply. -/
theorem State.senseDevice_parts (s : State) :
    StandsAt s.senseDevice 0
      [bitsByte [s.parks[0].isSome, s.parks[1].isSome, s.parks[2].isSome, s.parks[3].isSome]] ∧
    StandsAt s.senseDevice 1 [s.port.state.code] ∧ StandsAt s.senseDevice 2 (pairOf s.port.stray) ∧
    StandsAt s.senseDevice 4 [bitsByte [s.port.debounced.ready, s.port.debounced.mediaLow, s.port.debounced.cover,
      s.port.debounced.fault, s.port.debounced.hold]] ∧
    StandsAt s.senseDevice 5 [s.link.enable.bits] ∧ StandsAt s.senseDevice 6 [byteOf s.link.activeHigh.toNat] ∧
    StandsAt s.senseDevice 11
      [bitsByte [false, false, false, false, false, s.link.causes.imagerChange, s.link.causes.panelChange]] :=
  ⟨⟨_, rfl⟩, ⟨_, rfl⟩, ⟨_, rfl⟩, ⟨_, rfl⟩, ⟨_, rfl⟩, ⟨_, rfl⟩, ⟨_, rfl⟩⟩

theorem State.senseDevice_causes (s : State) (j : StationId) :
    StandsAt s.senseDevice (7 + j.val) [(s.station j).causes.bits] := by
  fin_cases j <;> exact ⟨_, rfl⟩

theorem Station.clearBy_eq (mask : Byte) (st : Station) : st.clearBy mask = { st with
    causes := ⟨st.causes.conditionNoted && !mask.getLsbD 0, st.causes.stopped && !mask.getLsbD 1,
      st.causes.countReached && !mask.getLsbD 2, st.causes.drained && !mask.getLsbD 3,
      st.causes.reportAdded && !mask.getLsbD 4⟩
    record := { st.record with
      counts := (if mask.getLsbD 7 = true then Vector.replicate 16 0 else st.record.counts) } } := by
  unfold Station.clearBy
  split <;> rfl

/-! ## Page summaries (R24, R182) -/

theorem guideField_length (g : Option Text) : (guideField g).length = 25 := by simp [guideField]

theorem guideField_get (g : Option Text) {j : Nat} (hj : j < 24) :
    byteAt (guideField g) (1 + j) = ((g.getD [])[j]?).elim 0x00 fun c => BitVec.ofNat 8 c.val := by
  rw [byteAt, guideField, Nat.add_comm, List.getD_cons_succ, List.getD_eq_getElem?_getD, List.getElem?_take_of_lt hj]
  by_cases hin : j < (g.getD []).length
  · rw [List.getElem?_append_left (by simpa using hin), List.getElem?_map, List.getElem?_eq_getElem hin]
    rfl
  · rw [List.getElem?_append_right (by simpa using hin), List.getElem?_eq_none (not_lt.mp hin)]
    rw [List.getElem?_replicate]
    split <;> rfl

theorem Summary.bytes_length (y : Summary) : y.bytes.length = 61 := by
  simp [Summary.bytes, guideField_length, bytes16, pairOf]

theorem Summary.bytes_firstGuide (y : Summary) : StandsAt y.bytes 11 (guideField y.firstGuide) := ⟨_, rfl⟩

theorem Summary.bytes_lastGuide (y : Summary) : StandsAt y.bytes 36 (guideField y.lastGuide) :=
  .append_right (k := 0) (by simp [guideField_length, bytes16, pairOf]) (.self _)

/-- Settles O36: the effect of each order, and every byte by the part of the reply it stands in. -/
theorem readingOrdersReply : Obligations.ReadingOrdersReply := by
  refine ⟨fun s h mask ha => ?sense, fun s i => ?senseBytes, fun s h n ha => ?report, fun y => ?summary,
    fun s h data ha hl => ?echo⟩
  case sense =>
    intro st keep
    refine exec_answered rfl ha (by simp) ?_
    rw [← Station.clearBy_eq]
    rfl
  case senseBytes =>
    intro st reply number entryAt slots levels on
    have context (k : Nat) {x : List Byte} (hx : StandsAt st.senseContext k x) : StandsAt reply k x :=
      State.senseReply_context i hx
    have device (k : Nat) {x : List Byte} (hx : StandsAt s.senseDevice k x) : StandsAt reply (86 + k) x :=
      State.senseReply_device i hx
    have slot (k : Nat) {c : Byte} (hx : StandsAt _ k [c]) : byteAt reply (37 + (44 + k)) = c :=
      (State.senseReply_record i (st.senseRecord_slots hx)).byteAt_eq
    have selected {n k : Nat} {o : Option (Fin n)} (hx : StandsAt st.senseContext k [selectionByte o]) :
        byteAt reply k = number (o.map Fin.val) := (context k hx).byteAt_eq.trans (selectionByte_eq o)
    have entry (k : Nat) {o : Option CondEntry} (hx : StandsAt st.senseRecord k (entryBytes o)) : entryAt (37 + k) o := by
      have ho := State.senseReply_record i hx
      cases o with
      | none => exact ho.entry_none
      | some e => exact ho.entry_some
    obtain ⟨hstate, hholds, hcode, hdrum, htape, hlayout, hcoll, hline, hmarks, hopen, hpage, hjob⟩ := st.senseContext_state
    obtain ⟨hlines, hlistings, hclosed, himaged, hmatch⟩ := st.senseContext_words
    obtain ⟨hquota, htimer, hidle⟩ := st.senseContext_settings
    obtain ⟨hparks, hport, hstray, hlevels, henable, hpolarity, hcauses⟩ := s.senseDevice_parts
    refine ⟨?length, (context 0 hstate).byteAt_eq, (context 1 hholds).bitsAt_eq, (context 2 hcode).byteAt_eq, selected hdrum,
      selected htape, selected hlayout, selected hcoll, (context 7 hline).byteAt_eq, (context 8 hmarks).bitsAt_eq,
      fun p hp => ?openLines, (context 10 hpage).halfAt_eq, (context 12 hjob).halfAt_eq, (context 14 hlines).wordAt_eq,
      (context 18 hlistings).wordAt_eq, (context 22 hclosed).wordAt_eq, (context 26 himaged).wordAt_eq,
      (context 30 hquota).byteAt_eq, (context 31 htimer).byteAt_eq, (context 32 hidle).byteAt_eq,
      (context 33 hmatch).wordAt_eq, entry 0 st.senseRecord_first, entry 6 st.senseRecord_last, fun k => ?counts,
      (slot 0 ⟨_, rfl⟩).trans ?opened, slot 1 ⟨_, rfl⟩, slot 2 ⟨_, rfl⟩, slot 3 ⟨_, rfl⟩, slot 4 ⟨_, rfl⟩,
      (device 0 hparks).bitsAt_eq, (device 1 hport).byteAt_eq, (device 2 hstray).halfAt_eq, (device 4 hlevels).bitsAt_eq,
      (device 5 henable).bitsAt_eq, (device 6 hpolarity).byteAt_eq.trans ?polarity, fun j => ?causes,
      (device 11 hcauses).bitsAt_eq⟩
    case length =>
      change (_ ++ _ ++ _ : List Byte).length = _
      rw [List.length_append, List.length_append, Station.senseRecord_length]
      rfl
    case openLines =>
      rw [(context 9 hopen).byteAt_eq, Station.openLines, hp]
      rfl
    case counts =>
      have hk := State.senseReply_record i (st.senseRecord_counts k)
      rw [← Nat.add_assoc] at hk
      exact hk.halfAt_eq
    case opened => split <;> rfl
    case polarity => cases s.link.activeHigh <;> rfl
    case causes =>
      have hj := State.senseReply_device i (s.senseDevice_causes j)
      rw [← Nat.add_assoc] at hj
      exact hj.bitsAt_eq
  case report =>
    intro st
    refine ⟨fun h1 h8 => exec_answered rfl ha (by simp) ?_, fun hn => exec_answered rfl ha (by simp) ?_⟩
    · have hr : Station.report n st = ({ st with reports := st.reports.drop n.toNat },
          { Answer.done with reply := (st.reports.take n.toNat).flatMap Summary.bytes }) := if_pos ⟨h1, h8⟩
      change s.atStation h.station (Station.report n) = _
      rw [State.atStation, hr]
    · have hr : Station.report n st = (st, .refused .badField) := if_neg (by
        rintro ⟨h1, h8⟩
        rcases hn with rfl | hn
        · exact absurd h1 (by decide)
        · omega)
      change s.atStation h.station (Station.report n) = _
      rw [State.atStation, hr, State.setStation_station]
  case summary =>
    intro b guideAt
    have guide {k : Nat} {g : Option Text} (hg : StandsAt b k (guideField g)) : guideAt k g := by
      refine ⟨?_, fun j hj => ?_⟩
      · have hlen : byteAt b k = byteAt (guideField g) 0 := hg.get (j := 0) (by simp [guideField_length])
        rw [hlen]
        simp [guideField, byteAt, byteOf]
      · rw [Nat.add_assoc, hg.get (by rw [guideField_length]; omega), guideField_get g hj]
    have half {k : Nat} {v : Half} (hv : StandsAt b k (bytes16 v)) := hv.halfAt_eq
    have byte {k : Nat} {c : Byte} (hc : StandsAt b k [c]) := hc.byteAt_eq
    exact ⟨y.bytes_length, half ⟨_, rfl⟩, half ⟨_, rfl⟩, byte ⟨_, rfl⟩, byte ⟨_, rfl⟩, half ⟨_, rfl⟩, byte ⟨_, rfl⟩,
      byte ⟨_, rfl⟩, StandsAt.bitsAt_eq (bits := [y.blank, y.clipped, y.refused, y.endJob]) ⟨_, rfl⟩,
      guide y.bytes_firstGuide, guide y.bytes_lastGuide⟩
  case echo => exact exec_answered rfl ha hl rfl

/-! ## ATTENTION SETUP (R176) -/

theorem enableOf_eq_none {e : Byte} (he : e.getLsbD 7 = true) : enableOf e = none := by
  rw [enableOf, he]
  rfl

theorem enableOf_eq_some {e : Byte} (he : e.getLsbD 7 = false) : enableOf e =
    some ⟨e.getLsbD 0, e.getLsbD 1, e.getLsbD 2, e.getLsbD 3, e.getLsbD 4, e.getLsbD 5, e.getLsbD 6⟩ := by
  rw [enableOf, he]
  rfl

/-- An accepted ATTENTION SETUP is answered as `orderAttentionSetup` says. -/
theorem exec_attentionSetup (ha : s.accepts h) {e p : Byte} {t : State} {a : Answer}
    (hr : orderAttentionSetup [e, p] s = (t, a)) :
    exec (.attentionSetup h [e, p]) s = .next (t.owe (leadOf h 0x0C) a) := exec_answered rfl ha (by simp) hr

/-- Settles O37: by the codes of the enable set and the polarity. -/
theorem attentionSetupReplaces : Obligations.AttentionSetupReplaces := by
  intro s h e p ha
  refine ⟨fun he hp => ⟨_, exec_attentionSetup ha ?_, rfl, State.summaryFlags_attention .., ?_, State.attentionPending_iff _⟩,
    fun hbad => exec_attentionSetup ha ?_⟩
  · simp only [orderAttentionSetup, enableOf_eq_some he]
    rw [if_pos hp]
  · rw [State.attentionLevel]
    split
    · rename_i hpending
      rw [hpending, Bool.true_beq]
    · rename_i hpending
      rw [Bool.eq_false_iff.mpr hpending, Bool.false_beq]
  · rcases hbad with he | ⟨h0, h1⟩
    · simp only [orderAttentionSetup, enableOf_eq_none he]
    · cases he : e.getLsbD 7 with
      | true => simp only [orderAttentionSetup, enableOf_eq_none he]
      | false =>
        simp only [orderAttentionSetup, enableOf_eq_some he]
        rw [if_neg (not_or.mpr ⟨h0, h1⟩)]

end Sys2Proof.Machine
end

section
/-! SUPPORT. The step as a whole (log entry 1), and the state after power-on under the laws of Safety.lean. -/

namespace Sys2Proof.Machine

variable {s : State}

/-! ## The step -/

theorem step_of_no_pending (h : s.pending = []) : step s = .next s := by
  simp only [step, h]

theorem step_of_pending {c : Instr} {rest : List Instr} (h : s.pending = c :: rest) :
    step s = exec c (s.setPending rest) := by
  simp only [step, h]

/-- Settles O1: the two branches of the step. -/
theorem stepRunsFrontCommand : Obligations.StepRunsFrontCommand :=
  ⟨fun _ _ _ h => step_of_pending h, fun _ h => step_of_no_pending h⟩

/-! ## The stations after power-on -/

/-- After power-on a law of single stations holds at all four. -/
theorem StationLaw.reset {P : Station → Prop} (law : StationLaw P) (i : StationId) : P (State.reset.station i) := by
  rw [State.reset_station]
  exact law.powerOn

/-- What is said of parked records holds after power-on: no slot holds one (R15). -/
theorem State.reset_forall_parks {P : ParkRecord → Prop} (k : Fin 4) (r : ParkRecord)
    (h : State.reset.parks[k] = some r) : P r := by
  simp [State.reset] at h

theorem State.reset_bounded : State.reset.Bounded where
  station i := by
    rw [State.reset_station]
    exact Station.bounded_powerOn
  park := State.reset_forall_parks

theorem State.reset_idleAgrees : State.reset.idleAgrees = true :=
  (State.allStations_iff _ _).mpr fun i => (Station.timed_iff _).mp (stationLaw_timed.reset i)

theorem State.reset_pagesAscend : State.reset.pagesAscend = true :=
  (State.allStations_iff _ _).mpr fun i => (Station.filed_iff _).mp (stationLaw_filed.reset i)

/-! ## The page store and the port after power-on (R134, R135, R150) -/

@[simp] theorem Station.powerOn_holdings : Station.powerOn.holdings = 0 := rfl

theorem State.reset_storeFits : State.reset.StoreFits where
  owned := by simp [State.owned]
  holdings i := by simp
  quota i := by simp [Station.powerOn]

/-- The event POWER-ON leaves the state after power-on as it is, and what it leaves keeps the flight. -/
theorem State.reset_flightLaw : State.reset.FlightLaw :=
  (State.Unmarked.powerOn State.reset).law

/-! ## The library after power-on (R118) -/

/-- After power-on only what holds of the empty selections has holders. -/
theorem State.reset_holders {f : Selections → Bool} (h : f Selections.none = false) : State.reset.holders f = 0 := by
  simp [State.holders, State.reset, Station.powerOn, h]

/-- Counts of 0 are right after power-on: no selection names an entry. -/
theorem State.reset_counts {n : Nat} {pick : Selections → Option (Fin n)} (hp : pick Selections.none = none) :
    State.reset.counts pick (Vector.replicate n 0) := fun e => by
  rw [State.holdersOf, State.reset_holders (by rw [hp]; rfl)]
  simp

theorem State.reset_refsAgree : State.reset.refsAgree = true :=
  (State.refsAgree_iff _).mpr
    ⟨State.reset_counts rfl, State.reset_counts rfl, State.reset_counts rfl, State.reset_counts rfl⟩

theorem State.reset_valid : State.reset.Valid where
  station i := by
    rw [State.reset_station]
    rfl
  complete i := by
    rw [State.reset_station]
    rfl
  park := State.reset_forall_parks

theorem State.reset_lines : State.reset.Lines where
  tape e x h := by simp [State.reset, Library.powerOn] at h
  station i := by
    rw [State.reset_station]
    exact (Library.lineInForm_iff _ _).mp rfl
  park := State.reset_forall_parks

/-! ## All the laws together -/

theorem State.legal_iff (s : State) : s.legal = true ↔
    s.Bounded ∧ (∀ i, (s.station i).steady) ∧ s.idleAgrees = true ∧ s.pagesAscend = true ∧ s.StoreFits ∧ s.FlightLaw ∧
    s.refsAgree = true ∧ s.Valid ∧ s.Lines ∧ s.timerAgrees = true := by
  rw [← State.bounded_iff, ← State.steady_iff, ← State.storeFits_iff, ← State.flightLaw_iff, ← State.selectionsValid_iff,
    ← State.linesInForms_iff]
  simp only [State.legal, Bool.and_eq_true]
  tauto

/-- Settles O3: each law through the terms its step lemma keeps, at stations without selections and pages and at empty
park slots. -/
theorem resetIsLegal : Obligations.ResetIsLegal :=
  (State.legal_iff _).mpr ⟨State.reset_bounded, stationLaw_steady.reset, State.reset_idleAgrees, State.reset_pagesAscend,
    State.reset_storeFits, State.reset_flightLaw, State.reset_refsAgree, State.reset_valid, State.reset_lines, rfl⟩

end Sys2Proof.Machine
end
